-- ==== Sys2Proof/Word.lean ====
section
/-!
DEFINITION. The two word types of the block: the wire byte and the bits of a binary64 operand.
The bit, mask and byte-order helpers stand in Machine/Bits.lean.
-/

namespace Sys2Proof

/-- One wire byte, a natural number in 0..255 (00_scope.md R7 `BYTE_W`, R8). -/
abbrev Byte := BitVec 8

/-- The 64 bits of an IEEE-754 binary64 converter operand (00_scope.md R11). -/
abbrev Double := BitVec 64

end Sys2Proof
end

