-- ==== Sys2Proof/Config.lean ====
section
/-!
DEFINITION. What is fixed when a block is built (00_scope.md R7, 10_state.md R31), and the one free
value: what the transport answers. The tables and constants with the spec's values stand in
Machine/Tables.lean.
-/

namespace Sys2Proof

/-- `ROUND_MODE` (00_scope.md R12, 40_converter.md R102). -/
inductive RoundMode where
  | nearestHalfAway
  | truncate
  deriving DecidableEq, Repr

/-- A register's access mode (10_state.md R32, R35). -/
inductive Access where
  | rw
  | ro
  deriving DecidableEq, Repr

/-- The register names of `SOURCE_TABLE` (10_state.md R33) and of `L6470_TABLE` (R34). -/
inductive RegName where
  | absPos | speed | acc | dec | maxSpeed | minSpeed | fsSpd | stepMode | alarmEn | config | status
  | elPos | markPos | kvalHold | kvalRun | kvalAcc | kvalDec | intSpd | stSlp | fnSlpAcc | fnSlpDec
  | kTherm | adcOut | ocdTh | stallTh
  deriving DecidableEq, Repr

/-- A register descriptor (10_state.md R32): address, width and access, with the register's name. -/
structure RegDesc where
  name   : RegName
  addr   : Nat
  width  : Nat
  access : Access
  deriving DecidableEq, Repr

/-- `STATUS_LAYOUT` (10_state.md R39): the bit position of each flag, and the position of the low bit
of the 2-bit motion state. -/
structure StatusLayout where
  hiz        : Nat
  busy       : Nat
  swF        : Nat
  swEvn      : Nat
  dir        : Nat
  motLow     : Nat
  notPerfCmd : Nat
  wrongCmd   : Nat
  uvlo       : Nat
  thWrn      : Nat
  thSd       : Nat
  ocd        : Nat
  stepLossA  : Nat
  stepLossB  : Nat
  sckMod     : Nat
  deriving DecidableEq, Repr

/-- `ACT_CODE` (00_scope.md R7, 10_state.md R43). -/
structure ActCode where
  resetAbsPos : Nat
  copyToMark  : Nat
  deriving DecidableEq, Repr

/-- The parameters of 00_scope.md R7 that a model takes as arguments. The converter constants, the word
widths and the payload widths are fixed (Machine/Tables.lean). -/
structure Config where
  regTable     : List RegDesc
  roundMode    : RoundMode
  filler       : Byte
  statusLayout : StatusLayout
  actCode      : ActCode
  deriving DecidableEq, Repr

/-- FREE VALUE (log 2): what the `n`-th `Exchange` call answers where the host has not said it: a byte,
or `none` for FAIL. The spec calls it a draw of which the block assumes nothing (00_scope.md R13). -/
opaque Config.draw : Nat → Option Byte

end Sys2Proof
end

