-- ==== Sys2Proof/Machine/Bits.lean ====
section
/-!
DEFINITION. Bits, widths and byte sequences of natural numbers (00_scope.md R8 to R10).
-/

namespace Sys2Proof

/-- `mask_w(v) = v mod 2^w` (00_scope.md R9). -/
def mask (w v : Nat) : Nat := v % 2 ^ w

/-- `max_w = 2^w - 1` (00_scope.md R9). -/
def maxOf (w : Nat) : Nat := 2 ^ w - 1

/-- `v[i]`, the bit `i` of a natural number (00_scope.md R8). -/
def bit (v i : Nat) : Nat := v / 2 ^ i % 2

/-- `v[hi:lo]` (00_scope.md R8). -/
def bits (v hi lo : Nat) : Nat := v / 2 ^ lo % 2 ^ (hi - lo + 1)

/-- `nbytes(w)` (00_scope.md R9). The spec defines it for `1 ≤ w ≤ 22` only; a table with another
width is refused before it is used (10_state.md R32, log 9). -/
def nbytes (w : Nat) : Nat := if w ≤ 8 then 1 else if w ≤ 16 then 2 else 3

/-- The byte whose value is `v mod 256`. -/
def byteOf (v : Nat) : Byte := BitVec.ofNat 8 v

/-- `be_n(v)`: the `n` low bytes of `v`, most significant first (00_scope.md R10). -/
def be : Nat → Nat → List Byte
  | 0, _ => []
  | n + 1, v => byteOf (v / 256 ^ n) :: be n v

/-- `unbe(bytes)`: the natural number whose big-endian bytes are `bytes` (00_scope.md R10). -/
def unbe : List Byte → Nat
  | [] => 0
  | b :: bs => b.toNat * 256 ^ bs.length + unbe bs

end Sys2Proof
end

