-- ==== Sys2Proof/Syntax.lean ====
section
/-!
DEFINITION. The operations of the block, one constructor of `Instr` for each row of
spec/opcode_table.json, with the request ports that carry them (30_encoding.md R90 to R92), the command
kinds and families (10_state.md R44), the error codes (60_exceptions.md R221) and the values the
decoders answer (41_config_commands.md R135, 43_stop_reset_status.md R187, 44_decoders.md R200, R208).
-/

namespace Sys2Proof

/-- The 18 operation names of the command port (30_encoding.md R92); a tag's kind is one of them
(10_state.md R28). -/
inductive Kind where
  | setParam | getParam | setLspdOpt
  | run | move | goto | gotoDir | goUntil | releaseSw | goHome | goMark
  | softStop | hardStop | softHiz | hardHiz
  | resetPos | resetDevice
  | getStatus
  deriving DecidableEq, Repr

/-- The command families (10_state.md R28, R44). -/
inductive Family where
  | config | motion | stop | reset | status
  deriving DecidableEq, Repr

/-- The tag of a frame: its family and kind (10_state.md R28). -/
structure Tag where
  family : Family
  kind   : Kind
  deriving DecidableEq, Repr

/-- Which path read a status word (10_state.md R29, 43_stop_reset_status.md R188). -/
inductive StatusPath where
  | clearing
  | nonclearing
  deriving DecidableEq, Repr

/-- The nine error codes, each with the information it records (60_exceptions.md R221). -/
inductive Err where
  /-- E1, the address (R222). -/
  | unknownRegister (a : Nat)
  /-- E2, the address (R223). -/
  | readOnlyRegister (a : Nat)
  /-- E3, the value (R224). -/
  | badEnum (v : Nat)
  /-- E4, the value (R225). -/
  | argRange (v : Nat)
  /-- E5, the length (R226). -/
  | responseLength (n : Nat)
  /-- E6, the index of the failed exchange (R233). -/
  | transportFail (idx : Nat)
  /-- E7 (R227). -/
  | engineBusy
  /-- E8 (R233). -/
  | desync
  /-- E9, the byte (R228). -/
  | unknownCommand (b : Byte)
  deriving DecidableEq, Repr

/-- How the response bytes of a frame are read (10_state.md R27). -/
inductive Resp where
  | none
  | param (a : Nat)
  | status
  deriving DecidableEq, Repr

/-- The record on the command port (30_encoding.md R92). The operand fields are unbounded naturals; a
kind reads only the fields its rule names. -/
structure Request where
  op     : Kind
  reg    : Nat := 0
  value  : Nat := 0
  dir    : Nat := 0
  act    : Nat := 0
  enable : Nat := 0
  deriving DecidableEq, Repr

/-- The quantity of a converter selector, its bits `csel[2:0]` from 0 to 6 (30_encoding.md R90). -/
inductive Quantity where
  | acceleration | deceleration | maximumSpeed | minimumSpeed | fullStepSpeed | intersectSpeed | runSpeed
  deriving DecidableEq, Repr

/-- Which side of the converter a selector asks for, its bit `csel[3]` (30_encoding.md R90). -/
inductive Side where
  | forward
  | reverse
  deriving DecidableEq, Repr

/-- A converter selector (30_encoding.md R90). Values 7 and 15 spell no operation, and this type leaves them
out, so they cannot be requested (40_converter.md R124). -/
structure Selector where
  side     : Side
  quantity : Quantity
  deriving DecidableEq, Repr

/-- Why 4 bits are no converter selector (30_encoding.md R90: "refused, UNASSIGNED"). -/
inductive SelectorRefusal where
  /-- The bits are 7 or 15. -/
  | unassigned (csel : BitVec 4)
  deriving DecidableEq, Repr

/-- What the host puts on one of the three request ports.
* `command`: the command record (30_encoding.md R92).
* `converter`: the selector and the operand (R90); a forward function reads `x`, a reverse one `r`.
* `decoder`: the 2-bit selector and the operands (R91); each decoder reads only those its rule names. -/
inductive PortRequest where
  | command (q : Request)
  | converter (csel : Selector) (x : Double) (r : Nat)
  | decoder (dsel : BitVec 2) (a : Nat) (b : Byte) (bytes : List Byte) (path : StatusPath)
  deriving DecidableEq, Repr

/-- The operations of the block: one constructor for each row of spec/opcode_table.json, with the operands
its rule reads. `dir`, `act` and `enable` are raw codes: an undefined one can be asked for, and is
refused by the operation itself (60_exceptions.md R224). -/
inductive Instr where
  -- command port, configuration family (41_config_commands.md)
  | setParam (reg value : Nat)
  | getParam (reg : Nat)
  | setLspdOpt (enable : Nat)
  -- command port, motion family (42_motion_commands.md)
  | run (dir value : Nat)
  | move (dir value : Nat)
  | goto (value : Nat)
  | gotoDir (dir value : Nat)
  | goUntil (act dir value : Nat)
  | releaseSw (act dir : Nat)
  | goHome
  | goMark
  -- command port, stop, reset and status families (43_stop_reset_status.md)
  | softStop
  | hardStop
  | softHiz
  | hardHiz
  | resetPos
  | resetDevice
  | getStatus
  -- converter port, forward (40_converter.md R105 to R111)
  | accToReg (x : Double)
  | decToReg (x : Double)
  | maxSpeedToReg (x : Double)
  | minSpeedToReg (x : Double)
  | fsSpdToReg (x : Double)
  | intSpdToReg (x : Double)
  | runSpeedToReg (x : Double)
  -- converter port, reverse (40_converter.md R116 to R122)
  | regToAcc (r : Nat)
  | regToDec (r : Nat)
  | regToMaxSpeed (r : Nat)
  | regToMinSpeed (r : Nat)
  | regToFsSpd (r : Nat)
  | regToIntSpd (r : Nat)
  | regToRunSpeed (r : Nat)
  -- decoder port (41_config_commands.md R135, 43_stop_reset_status.md R187, 44_decoders.md R200, R208)
  | decodeParam (a : Nat) (bytes : List Byte)
  | decodeStatus (bytes : List Byte) (path : StatusPath)
  | decodeCommand (b : Byte)
  | decodeFrame (bytes : List Byte)
  deriving DecidableEq, Repr

/-- The motion state of a status word (10_state.md R40). -/
inductive MotState where
  | stopped | accelerating | decelerating | constantSpeed
  deriving DecidableEq, Repr

/-- The value of decodeStatus (43_stop_reset_status.md R187): the path, the raw word, the raw flag bits
(0 or 1, no polarity inverted) and the motion state. -/
structure StatusFields where
  path       : StatusPath
  word       : Nat
  hiz        : Nat
  busy       : Nat
  swF        : Nat
  swEvn      : Nat
  dir        : Nat
  motStatus  : MotState
  notPerfCmd : Nat
  wrongCmd   : Nat
  uvlo       : Nat
  thWrn      : Nat
  thSd       : Nat
  ocd        : Nat
  stepLossA  : Nat
  stepLossB  : Nat
  sckMod     : Nat
  deriving DecidableEq, Repr

/-- The value `CMD{kind, a, d, c, ncmd, nresp}` of decodeCommand (44_decoders.md R200); the fields `a`, `d`
and `c` are present only for the kinds that have them. -/
structure Cmd where
  kind  : Kind
  a     : Option Nat
  d     : Option Nat
  c     : Option Nat
  ncmd  : Nat
  nresp : Nat
  deriving DecidableEq, Repr

/-- What the converter port returns: a register value (40_converter.md R104) or an exact rational in the
physical unit (R115). -/
inductive ConvValue where
  | reg (n : Nat)
  | phys (q : Rat)
  deriving DecidableEq, Repr

/-- What the decoder port returns: a value of one of the four decoders, or an error (00_scope.md R14). -/
inductive DecValue where
  | err (e : Err)
  | param (v : Nat)
  | status (f : StatusFields)
  | command (c : Cmd)
  | request (q : Request)
  deriving DecidableEq, Repr

end Sys2Proof
end

