-- ==== Sys2Proof/Machine/Tables.lean ====
section
/-!
DEFINITION. The tables and constants of the spec: the register tables (10_state.md R33, R34), the status
layout (R39), the action codes (R43), the converter constants (00_scope.md R7) and the command
descriptor table (30_encoding.md R79), with the check of a configuration (10_state.md R32).
-/

namespace Sys2Proof

/-- `SOURCE_TABLE` (10_state.md R33). -/
def sourceTable : List RegDesc :=
  [⟨.absPos, 0x01, 22, .rw⟩, ⟨.speed, 0x04, 20, .ro⟩, ⟨.acc, 0x05, 12, .rw⟩, ⟨.dec, 0x06, 12, .rw⟩,
   ⟨.maxSpeed, 0x07, 10, .rw⟩, ⟨.minSpeed, 0x08, 13, .rw⟩, ⟨.fsSpd, 0x15, 10, .rw⟩,
   ⟨.stepMode, 0x16, 8, .rw⟩, ⟨.alarmEn, 0x17, 8, .rw⟩, ⟨.config, 0x18, 16, .rw⟩,
   ⟨.status, 0x19, 16, .ro⟩]

/-- The rows `L6470_TABLE` adds to `SOURCE_TABLE` (10_state.md R34). -/
def l6470Rows : List RegDesc :=
  [⟨.elPos, 0x02, 9, .rw⟩, ⟨.markPos, 0x03, 22, .rw⟩, ⟨.kvalHold, 0x09, 8, .rw⟩,
   ⟨.kvalRun, 0x0A, 8, .rw⟩, ⟨.kvalAcc, 0x0B, 8, .rw⟩, ⟨.kvalDec, 0x0C, 8, .rw⟩,
   ⟨.intSpd, 0x0D, 14, .rw⟩, ⟨.stSlp, 0x0E, 8, .rw⟩, ⟨.fnSlpAcc, 0x0F, 8, .rw⟩,
   ⟨.fnSlpDec, 0x10, 8, .rw⟩, ⟨.kTherm, 0x11, 4, .rw⟩, ⟨.adcOut, 0x12, 5, .ro⟩,
   ⟨.ocdTh, 0x13, 4, .rw⟩, ⟨.stallTh, 0x14, 7, .rw⟩]

/-- `L6470_TABLE` (10_state.md R34). -/
def l6470Table : List RegDesc := sourceTable ++ l6470Rows

/-- The default `STATUS_LAYOUT` (10_state.md R39). -/
def defaultLayout : StatusLayout :=
  { hiz := 0, busy := 1, swF := 2, swEvn := 3, dir := 4, motLow := 5, notPerfCmd := 7, wrongCmd := 8,
    uvlo := 9, thWrn := 10, thSd := 11, ocd := 12, stepLossA := 13, stepLossB := 14, sckMod := 15 }

/-- The configuration whose values 00_scope.md R7 fixes. -/
def defaultConfig : Config :=
  { regTable := sourceTable, roundMode := .nearestHalfAway, filler := 0x00,
    statusLayout := defaultLayout, actCode := { resetAbsPos := 0, copyToMark := 1 } }

/-- The address of the status register (10_state.md R33), the one GET_PARAM reads as a status word
(41_config_commands.md R133). -/
def statusAddr : Nat := 0x19

/-- The address of MIN_SPEED (10_state.md R33), the register SET_LSPD_OPT writes
(41_config_commands.md R134). -/
def minSpeedAddr : Nat := 0x08

/-- One descriptor is well formed: a 5-bit address and a width in 1..22 (10_state.md R32). -/
def descOk (d : RegDesc) : Bool := decide (d.addr ≤ 31) && decide (1 ≤ d.width) && decide (d.width ≤ 22)

/-- No two descriptors share an address (10_state.md R32: at most one descriptor for each). -/
def addrsDistinct : List RegDesc → Bool
  | [] => true
  | d :: ds => ds.all (fun e => decide (e.addr ≠ d.addr)) && addrsDistinct ds

/-- The check a model makes of its configuration (10_state.md R32). -/
def configOk (cfg : Config) : Bool := cfg.regTable.all descOk && addrsDistinct cfg.regTable

/-! ### Converter constants (00_scope.md R7, R11) -/

/-- `K_ACC`. -/
def kAcc : Rat := 137438 / 1000000
/-- `K_MAXSPD`. -/
def kMaxSpd : Rat := 65536 / 1000000
/-- `K_MINSPD`. -/
def kMinSpd : Rat := 41943 / 10000
/-- `K_FSSPD`. -/
def kFsSpd : Rat := 65536 / 1000000
/-- `OFF_FSSPD`. -/
def offFsSpd : Rat := 1 / 2
/-- `K_INTSPD`. -/
def kIntSpd : Rat := 41943 / 10000
/-- `K_RUNSPD`. -/
def kRunSpd : Rat := 67106 / 1000

/-! ### The command descriptor table (30_encoding.md R79) -/

/-- The family of a kind (10_state.md R44, 30_encoding.md R79). -/
def Kind.family : Kind → Family
  | .setParam | .getParam | .setLspdOpt => .config
  | .run | .move | .goto | .gotoDir | .goUntil | .releaseSw | .goHome | .goMark => .motion
  | .softStop | .hardStop | .softHiz | .hardHiz => .stop
  | .resetPos | .resetDevice => .reset
  | .getStatus => .status

/-- The payload width of a motion argument (30_encoding.md R79): 20 bits for a speed, 22 for a position or
distance, none for the other kinds. -/
def Kind.argWidth : Kind → Option Nat
  | .run | .goUntil => some 20
  | .move | .goto | .gotoDir => some 22
  | .setParam | .getParam | .setLspdOpt | .releaseSw | .goHome | .goMark => none
  | .softStop | .hardStop | .softHiz | .hardHiz | .resetPos | .resetDevice | .getStatus => none

/-- Payload bytes of a kind (30_encoding.md R79); `w` is the width of the register it names, if it names
one. -/
def Kind.payloadBytes (k : Kind) (w : Nat) : Nat :=
  match k with
  | .setParam | .setLspdOpt => nbytes w
  | k => match k.argWidth with
    | some aw => nbytes aw
    | none => 0

/-- Response bytes of a kind (30_encoding.md R79); `w` as above. -/
def Kind.respBytes (k : Kind) (w : Nat) : Nat :=
  match k with
  | .getParam => nbytes w
  | .getStatus => 2
  | _ => 0

/-- The tag a completed frame of the kind carries (41_config_commands.md R138, 42_motion_commands.md R160,
43_stop_reset_status.md R188). SET_LSPD_OPT is a SET_PARAM (10_state.md R44). -/
def Kind.tag (k : Kind) : Tag :=
  match k with
  | .setLspdOpt => ⟨.config, .setParam⟩
  | k => ⟨k.family, k⟩

end Sys2Proof
end

