-- ==== Sys2Proof/Machine/Operands.lean ====
section
/-!
DEFINITION. Every operand check of the command port and the register lookup
(41_config_commands.md R130, R134; 42_motion_commands.md R150; 60_exceptions.md R229).
-/

namespace Sys2Proof

/-- `lookup(a)` (41_config_commands.md R130): the descriptor of an admitted address (20_memory.md R51), or
E1. -/
def lookup (cfg : Config) (a : Nat) : Except Err RegDesc :=
  if a > 31 then .error (.unknownRegister a)
  else match cfg.regTable.find? (fun d => d.addr == a) with
    | some d => .ok d
    | none => .error (.unknownRegister a)

/-- An address is admitted if it has a descriptor (20_memory.md R51). -/
def admitted (cfg : Config) (a : Nat) : Bool := (lookup cfg a).isOk

/-- `checkDir(d)` (42_motion_commands.md R150). -/
def checkDir (d : Nat) : Option Err := if d > 1 then some (.badEnum d) else none

/-- `checkAct(c)` (42_motion_commands.md R150). -/
def checkAct (c : Nat) : Option Err := if c > 1 then some (.badEnum c) else none

/-- `checkArg(v, w)` (42_motion_commands.md R150). -/
def checkArg (v w : Nat) : Option Err := if v ≥ 2 ^ w then some (.argRange v) else none

/-- The check of SET_LSPD_OPT's operand (41_config_commands.md R134). -/
def checkEnable (e : Nat) : Option Err := if e ≠ 1 then some (.badEnum e) else none

/-- The first error of a list of checks, in its order (60_exceptions.md R229: one request reports one
error). -/
def firstErr : List (Option Err) → Option Err
  | [] => none
  | some e :: _ => some e
  | none :: cs => firstErr cs

/-- `x` if every check passes, else the first error (42_motion_commands.md R150). -/
def checked {α : Type} (cs : List (Option Err)) (x : α) : Except Err α :=
  match firstErr cs with
  | some e => .error e
  | none => .ok x

end Sys2Proof
end

