-- ==== Sys2Proof/WellFormed.lean ====
section
/-!
DEFINITION. When an operation is well formed under a configuration: every operand check of its rule passes,
so that the command port accepts it when the engine is idle. Converter and decoder operations are total
(40_converter.md R124, 44_decoders.md R200) and always well formed. An ill-formed operation still has a
meaning: it ends with its error code (60_exceptions.md R220).
-/

namespace Sys2Proof

/-- The operands of an instruction pass every check of its rule. -/
def Instr.wellFormed (cfg : Config) : Instr → Bool
  -- 41_config_commands.md R131, R139
  | .setParam a _ => match lookup cfg a with
    | .ok d => decide (d.access = .rw)
    | .error _ => false
  -- R132
  | .getParam a => admitted cfg a
  -- R134
  | .setLspdOpt e => decide (e = 1) && admitted cfg minSpeedAddr
  -- 42_motion_commands.md R151 to R158
  | .run d s => decide (d ≤ 1) && decide (s < 2 ^ 20)
  | .move d n => decide (d ≤ 1) && decide (n < 2 ^ 22)
  | .goto p => decide (p < 2 ^ 22)
  | .gotoDir d p => decide (d ≤ 1) && decide (p < 2 ^ 22)
  | .goUntil c d s => decide (c ≤ 1) && decide (d ≤ 1) && decide (s < 2 ^ 20)
  | .releaseSw c d => decide (c ≤ 1) && decide (d ≤ 1)
  | .goHome => true
  | .goMark => true
  -- 43_stop_reset_status.md R180 to R186: no operand to check
  | .softStop => true
  | .hardStop => true
  | .softHiz => true
  | .hardHiz => true
  | .resetPos => true
  | .resetDevice => true
  | .getStatus => true
  -- converter port
  | .accToReg _ => true
  | .decToReg _ => true
  | .maxSpeedToReg _ => true
  | .minSpeedToReg _ => true
  | .fsSpdToReg _ => true
  | .intSpdToReg _ => true
  | .runSpeedToReg _ => true
  | .regToAcc _ => true
  | .regToDec _ => true
  | .regToMaxSpeed _ => true
  | .regToMinSpeed _ => true
  | .regToFsSpd _ => true
  | .regToIntSpd _ => true
  | .regToRunSpeed _ => true
  -- decoder port
  | .decodeParam _ _ => true
  | .decodeStatus _ _ => true
  | .decodeCommand _ => true
  | .decodeFrame _ => true

end Sys2Proof
end

