-- ==== Sys2Proof/Decode.lean ====
section
/-!
DEFINITION. The decoders: a port request to the operation it spells (30_encoding.md R90 to R92), an opcode
byte to a command (44_decoders.md R200 to R206), a frame to a request (R208), response bytes to a value
(41_config_commands.md R135). After them the encoders, from the same encoding rules (30_encoding.md R73 to
R82): an operation to the frame the block sends, and to the record on its port.
-/

namespace Sys2Proof

/-! ### The request ports -/

/-- The operation on a command record: a kind reads only the fields its rule names (30_encoding.md R92). -/
def decodeRequest (q : Request) : Instr :=
  match q.op with
  | .setParam => .setParam q.reg q.value
  | .getParam => .getParam q.reg
  | .setLspdOpt => .setLspdOpt q.enable
  | .run => .run q.dir q.value
  | .move => .move q.dir q.value
  | .goto => .goto q.value
  | .gotoDir => .gotoDir q.dir q.value
  | .goUntil => .goUntil q.act q.dir q.value
  | .releaseSw => .releaseSw q.act q.dir
  | .goHome => .goHome
  | .goMark => .goMark
  | .softStop => .softStop
  | .hardStop => .hardStop
  | .softHiz => .softHiz
  | .hardHiz => .hardHiz
  | .resetPos => .resetPos
  | .resetDevice => .resetDevice
  | .getStatus => .getStatus

/-- The quantity that the bits `csel[2:0]` name; 7 names none (30_encoding.md R90). -/
def quantityOf (n : Nat) : Option Quantity :=
  match n with
  | 0 => some .acceleration
  | 1 => some .deceleration
  | 2 => some .maximumSpeed
  | 3 => some .minimumSpeed
  | 4 => some .fullStepSpeed
  | 5 => some .intersectSpeed
  | 6 => some .runSpeed
  | _ => none

/-- The selector that 4 bits spell, or the refusal UNASSIGNED of 7 and 15 (30_encoding.md R90). -/
def selectorOf (csel : BitVec 4) : Except SelectorRefusal Selector :=
  match quantityOf (bits csel.toNat 2 0) with
  | some q => .ok ⟨if bit csel.toNat 3 = 0 then .forward else .reverse, q⟩
  | none => .error (.unassigned csel)

/-- The operation a converter selector spells (30_encoding.md R90): a forward function reads `x`, a reverse one
`r`. -/
def decodeConverter (csel : Selector) (x : Double) (r : Nat) : Instr :=
  match csel.side, csel.quantity with
  | .forward, .acceleration => .accToReg x
  | .forward, .deceleration => .decToReg x
  | .forward, .maximumSpeed => .maxSpeedToReg x
  | .forward, .minimumSpeed => .minSpeedToReg x
  | .forward, .fullStepSpeed => .fsSpdToReg x
  | .forward, .intersectSpeed => .intSpdToReg x
  | .forward, .runSpeed => .runSpeedToReg x
  | .reverse, .acceleration => .regToAcc r
  | .reverse, .deceleration => .regToDec r
  | .reverse, .maximumSpeed => .regToMaxSpeed r
  | .reverse, .minimumSpeed => .regToMinSpeed r
  | .reverse, .fullStepSpeed => .regToFsSpd r
  | .reverse, .intersectSpeed => .regToIntSpd r
  | .reverse, .runSpeed => .regToRunSpeed r

/-- The operation a decoder selector spells (30_encoding.md R91). -/
def decodeDecoder (dsel : BitVec 2) (a : Nat) (b : Byte) (bytes : List Byte) (path : StatusPath) : Instr :=
  match dsel.toNat with
  | 0 => .decodeParam a bytes
  | 1 => .decodeStatus bytes path
  | 2 => .decodeCommand b
  | _ => .decodeFrame bytes

/-- The operation a port request spells: every request spells one (30_encoding.md R90 to R92). -/
def decodePort : PortRequest → Instr
  | .command q => decodeRequest q
  | .converter csel x r => decodeConverter csel x r
  | .decoder dsel a b bytes path => decodeDecoder dsel a b bytes path

/-! ### Opcode bytes -/

/-- The fields of an opcode byte, before the register table is asked (30_encoding.md R73 to R76). -/
structure OpFields where
  kind : Kind
  a    : Option Nat := none
  d    : Option Nat := none
  c    : Option Nat := none
  deriving DecidableEq, Repr

/-- FIXED forms (30_encoding.md R76, 44_decoders.md R205). -/
def fixedKind (b : Nat) : Option Kind :=
  if b = 0x60 then some .goto
  else if b = 0x70 then some .goHome
  else if b = 0x78 then some .goMark
  else if b = 0xA0 then some .softHiz
  else if b = 0xA8 then some .hardHiz
  else if b = 0xB0 then some .softStop
  else if b = 0xB8 then some .hardStop
  else if b = 0xC0 then some .resetDevice
  else if b = 0xD0 then some .getStatus
  else if b = 0xD8 then some .resetPos
  else none

/-- The opcode map: REG, DIR, ACTDIR and FIXED forms (44_decoders.md R202 to R205). -/
def opFields (byte : Byte) : Option OpFields :=
  let b := byte.toNat
  if bits b 7 6 = 0 then
    some { kind := if bit b 5 = 0 then .setParam else .getParam, a := some (bits b 4 0) }
  else if bits b 7 1 = 0b0100000 then some { kind := .move, d := some (bit b 0) }
  else if bits b 7 1 = 0b0101000 then some { kind := .run, d := some (bit b 0) }
  else if bits b 7 1 = 0b0110100 then some { kind := .gotoDir, d := some (bit b 0) }
  else if bits b 7 4 = 0b1000 ∧ bits b 2 1 = 0b01 then
    some { kind := .goUntil, c := some (bit b 3), d := some (bit b 0) }
  else if bits b 7 4 = 0b1001 ∧ bits b 2 1 = 0b01 then
    some { kind := .releaseSw, c := some (bit b 3), d := some (bit b 0) }
  else match fixedKind b with
    | some k => some { kind := k }
    | none => none

/-- A command with its lengths from the descriptor table (30_encoding.md R79, R86); `w` is the width of the
register it names, if it names one. -/
def cmdOf (f : OpFields) (w : Nat) : Cmd :=
  { kind := f.kind, a := f.a, d := f.d, c := f.c,
    ncmd := 1 + f.kind.payloadBytes w, nresp := f.kind.respBytes w }

/-- decodeCommand (44_decoders.md R200 to R206): total, with E9 for an unassigned byte and for a REG form
whose address is not admitted. -/
def decodeCommand (cfg : Config) (b : Byte) : Except Err Cmd :=
  match opFields b with
  | none => .error (.unknownCommand b)
  | some f => match f.a with
    | none => .ok (cmdOf f 0)
    | some a => match lookup cfg a with
      | .ok d => .ok (cmdOf f d.width)
      | .error _ => .error (.unknownCommand b)

/-- frameLength (44_decoders.md R207). -/
def frameLength (cfg : Config) (b : Byte) : Except Err Nat :=
  match decodeCommand cfg b with
  | .ok c => .ok (c.ncmd + c.nresp)
  | .error e => .error e

/-! ### Frames and responses -/

/-- The width of an admitted register; 0 for an address that is not admitted. -/
def regWidth (cfg : Config) (a : Nat) : Nat :=
  match lookup cfg a with
  | .ok d => d.width
  | .error _ => 0

/-- The request a decoded command and its payload spell (44_decoders.md R208): a SET_PARAM payload is masked,
a motion payload is range-checked, and the fields the kind does not read are 0. -/
def requestOf (cfg : Config) (c : Cmd) (p : Nat) : Except Err Request :=
  match c.kind.argWidth with
  | some w =>
    if p ≥ 2 ^ w then .error (.argRange p)
    else .ok { op := c.kind, value := p, dir := c.d.getD 0, act := c.c.getD 0 }
  | none =>
    .ok { op := c.kind, reg := c.a.getD 0,
          value := if c.kind = .setParam then mask (regWidth cfg (c.a.getD 0)) p else 0,
          dir := c.d.getD 0, act := c.c.getD 0 }

/-- decodeFrame (44_decoders.md R208): the inverse of the command encoders. -/
def decodeFrame (cfg : Config) : List Byte → Except Err Request
  | [] => .error (.responseLength 0)
  | b :: rest => match decodeCommand cfg b with
    | .error e => .error e
    | .ok c =>
      if rest.length + 1 ≠ c.ncmd + c.nresp then .error (.responseLength (rest.length + 1))
      else requestOf cfg c (unbe (rest.take (c.ncmd - 1)))

/-- decodeParamResponse (41_config_commands.md R135, 30_encoding.md R82). -/
def decodeParamResponse (cfg : Config) (a : Nat) (bytes : List Byte) : Except Err Nat :=
  match lookup cfg a with
  | .error e => .error e
  | .ok d =>
    if bytes.length ≠ nbytes d.width then .error (.responseLength bytes.length)
    else .ok (mask d.width (unbe bytes))

/-! ### Encoders -/

/-- encodeSetParam (41_config_commands.md R131): pure, for every admitted address, read-only ones included;
the value is masked, never rejected. -/
def encodeSetParam (cfg : Config) (a v : Nat) : Except Err (List Byte) :=
  match lookup cfg a with
  | .error e => .error e
  | .ok d => .ok (byteOf (0x00 ||| a) :: be (nbytes d.width) (mask d.width v))

/-- encodeGetParam (41_config_commands.md R132): the opcode byte. -/
def encodeGetParam (cfg : Config) (a : Nat) : Except Err Byte :=
  match lookup cfg a with
  | .error e => .error e
  | .ok _ => .ok (byteOf (0x20 ||| a))

/-- A frame in format DIR, F-WR with a 3-byte payload (30_encoding.md R74, R80). -/
def dirFrame (base d v : Nat) : List Byte := byteOf (base ||| d) :: be 3 v

/-- An opcode in format ACTDIR (30_encoding.md R75). -/
def actDirOp (base c d : Nat) : Byte := byteOf (base ||| c <<< 3 ||| d)

/-- The frame of the response-reading format F-RD (30_encoding.md R71, R81). -/
def readFrame (cfg : Config) (op : Byte) (n : Nat) : List Byte := op :: List.replicate n cfg.filler

/-- The frame the block sends for a well-formed command (30_encoding.md R71 to R81). `none` for the
converter and decoder operations, which send nothing (40_converter.md R124), and for an operation whose
checks fail, which sends nothing either (60_exceptions.md R230). -/
def encode (cfg : Config) (i : Instr) : Option (List Byte) :=
  if i.wellFormed cfg then
    match i with
    | .setParam a v => (encodeSetParam cfg a v).toOption
    | .getParam a => some (readFrame cfg (byteOf (0x20 ||| a)) (nbytes (regWidth cfg a)))
    | .setLspdOpt _ => (encodeSetParam cfg minSpeedAddr 0x1000).toOption
    | .run d s => some (dirFrame 0x50 d s)
    | .move d n => some (dirFrame 0x40 d n)
    | .goto p => some (0x60 :: be 3 p)
    | .gotoDir d p => some (dirFrame 0x68 d p)
    | .goUntil c d s => some (actDirOp 0x82 c d :: be 3 s)
    | .releaseSw c d => some [actDirOp 0x92 c d]
    | .goHome => some [0x70]
    | .goMark => some [0x78]
    | .softStop => some [0xB0]
    | .hardStop => some [0xB8]
    | .softHiz => some [0xA0]
    | .hardHiz => some [0xA8]
    | .resetPos => some [0xD8]
    | .resetDevice => some [0xC0]
    | .getStatus => some (readFrame cfg 0xD0 2)
    | .accToReg _ | .decToReg _ | .maxSpeedToReg _ | .minSpeedToReg _ | .fsSpdToReg _ => none
    | .intSpdToReg _ | .runSpeedToReg _ => none
    | .regToAcc _ | .regToDec _ | .regToMaxSpeed _ | .regToMinSpeed _ | .regToFsSpd _ => none
    | .regToIntSpd _ | .regToRunSpeed _ => none
    | .decodeParam _ _ | .decodeStatus _ _ | .decodeCommand _ | .decodeFrame _ => none
  else none

/-- The bits `csel[2:0]` of a quantity (30_encoding.md R90). -/
def Quantity.bits : Quantity → Nat
  | .acceleration => 0
  | .deceleration => 1
  | .maximumSpeed => 2
  | .minimumSpeed => 3
  | .fullStepSpeed => 4
  | .intersectSpeed => 5
  | .runSpeed => 6

/-- The 4 bits of a selector (30_encoding.md R90). -/
def selectorBits (c : Selector) : BitVec 4 :=
  match c.side with
  | .forward => BitVec.ofNat 4 c.quantity.bits
  | .reverse => BitVec.ofNat 4 (8 + c.quantity.bits)

/-- The port request of an operation, the fields it does not read at 0 (30_encoding.md R90 to R92). -/
def encodePort : Instr → PortRequest
  | .setParam a v => .command { op := .setParam, reg := a, value := v }
  | .getParam a => .command { op := .getParam, reg := a }
  | .setLspdOpt e => .command { op := .setLspdOpt, enable := e }
  | .run d s => .command { op := .run, dir := d, value := s }
  | .move d n => .command { op := .move, dir := d, value := n }
  | .goto p => .command { op := .goto, value := p }
  | .gotoDir d p => .command { op := .gotoDir, dir := d, value := p }
  | .goUntil c d s => .command { op := .goUntil, act := c, dir := d, value := s }
  | .releaseSw c d => .command { op := .releaseSw, act := c, dir := d }
  | .goHome => .command { op := .goHome }
  | .goMark => .command { op := .goMark }
  | .softStop => .command { op := .softStop }
  | .hardStop => .command { op := .hardStop }
  | .softHiz => .command { op := .softHiz }
  | .hardHiz => .command { op := .hardHiz }
  | .resetPos => .command { op := .resetPos }
  | .resetDevice => .command { op := .resetDevice }
  | .getStatus => .command { op := .getStatus }
  | .accToReg x => .converter ⟨.forward, .acceleration⟩ x 0
  | .decToReg x => .converter ⟨.forward, .deceleration⟩ x 0
  | .maxSpeedToReg x => .converter ⟨.forward, .maximumSpeed⟩ x 0
  | .minSpeedToReg x => .converter ⟨.forward, .minimumSpeed⟩ x 0
  | .fsSpdToReg x => .converter ⟨.forward, .fullStepSpeed⟩ x 0
  | .intSpdToReg x => .converter ⟨.forward, .intersectSpeed⟩ x 0
  | .runSpeedToReg x => .converter ⟨.forward, .runSpeed⟩ x 0
  | .regToAcc r => .converter ⟨.reverse, .acceleration⟩ 0 r
  | .regToDec r => .converter ⟨.reverse, .deceleration⟩ 0 r
  | .regToMaxSpeed r => .converter ⟨.reverse, .maximumSpeed⟩ 0 r
  | .regToMinSpeed r => .converter ⟨.reverse, .minimumSpeed⟩ 0 r
  | .regToFsSpd r => .converter ⟨.reverse, .fullStepSpeed⟩ 0 r
  | .regToIntSpd r => .converter ⟨.reverse, .intersectSpeed⟩ 0 r
  | .regToRunSpeed r => .converter ⟨.reverse, .runSpeed⟩ 0 r
  | .decodeParam a bytes => .decoder 0 a 0 bytes .clearing
  | .decodeStatus bytes path => .decoder 1 0 0 bytes path
  | .decodeCommand b => .decoder 2 0 b [] .clearing
  | .decodeFrame bytes => .decoder 3 0 0 bytes .clearing

/-- The canonical form of a request (44_decoders.md R209): the fields the kind does not read are 0, a
SET_PARAM value is masked, and SET_LSPD_OPT is the SET_PARAM it sends. -/
def canon (cfg : Config) (q : Request) : Request :=
  match q.op with
  | .setParam => { op := .setParam, reg := q.reg, value := mask (regWidth cfg q.reg) q.value }
  | .getParam => { op := .getParam, reg := q.reg }
  | .setLspdOpt => { op := .setParam, reg := minSpeedAddr, value := 0x1000 }
  | .run => { op := .run, dir := q.dir, value := q.value }
  | .move => { op := .move, dir := q.dir, value := q.value }
  | .goto => { op := .goto, value := q.value }
  | .gotoDir => { op := .gotoDir, dir := q.dir, value := q.value }
  | .goUntil => { op := .goUntil, act := q.act, dir := q.dir, value := q.value }
  | .releaseSw => { op := .releaseSw, act := q.act, dir := q.dir }
  | .goHome => { op := .goHome }
  | .goMark => { op := .goMark }
  | .softStop => { op := .softStop }
  | .hardStop => { op := .hardStop }
  | .softHiz => { op := .softHiz }
  | .hardHiz => { op := .hardHiz }
  | .resetPos => { op := .resetPos }
  | .resetDevice => { op := .resetDevice }
  | .getStatus => { op := .getStatus }

/-! ### The rows of spec/opcode_table.json -/

/-- The operation a command byte of the table spells, its payload bytes 0: the row's kind with the fields of
the byte (30_encoding.md R73 to R79). A REG form whose address is not admitted is still a request the port
takes; its meaning answers E1. -/
def decodeCommandWord (b : Byte) : Option Instr :=
  match opFields b with
  | none => none
  | some f => some (decodeRequest { op := f.kind, reg := f.a.getD 0, dir := f.d.getD 0, act := f.c.getD 0 })

/-- The operation the converter selector `w` spells, its operand 0. -/
def decodeConverterWord (w : Nat) : Option Instr :=
  (selectorOf (BitVec.ofNat 4 w)).toOption.map (fun c => decodeConverter c 0 0)

/-- The operation a row's bits spell (log 12). The table's three ports share bit patterns: at most 2 bits are
read as a decoder selector, 3 or 4 bits as a converter selector, and more as a byte. A byte that is an assigned
converter selector is read as one (SET_PARAM shows itself at the other bytes of its row), any other as an opcode
byte. Bits above 7 are operand bytes; they are read as 0, as the table gives them no bits. -/
def decodeTableWord (nbits w : Nat) : Option Instr :=
  if nbits ≤ 2 then some (decodeDecoder (BitVec.ofNat 2 w) 0 0 [] .clearing)
  else if nbits ≤ 4 then decodeConverterWord w
  else
    let b := byteOf w
    if b.toNat < 16 then
      match decodeConverterWord b.toNat with
      | some i => some i
      | none => decodeCommandWord b
    else decodeCommandWord b

end Sys2Proof
end

