-- ==== Sys2Proof/Machine/State.lean ====
section
/-!
DEFINITION. The state of the block: the engine record of 10_state.md R23, the configuration it was built
with (00_scope.md R7), and the model's own fields that carry its inputs and outputs as plain data.
-/

namespace Sys2Proof.Machine

/-- The engine phase (10_state.md R24). -/
inductive Phase where
  | idle | xfer | desync
  deriving DecidableEq, Repr

/-- The result register's contents (10_state.md R29). -/
inductive Result where
  /-- No request since reset. -/
  | none
  /-- The last request ended with an error. -/
  | err (e : Err)
  /-- A frame without a response completed. -/
  | done (tag : Tag)
  /-- A GET_PARAM of address `a` completed with value `v`. -/
  | value (tag : Tag) (a v : Nat)
  /-- A status read completed with the word `w`. -/
  | status (tag : Tag) (path : StatusPath) (w : Nat)
  deriving DecidableEq, Repr

/-- The frame engine's record, "all the block's mutable state" (10_state.md R23). -/
structure Engine where
  phase : Phase
  frame : List Byte
  ncmd  : Nat
  idx   : Nat
  rx    : List Byte
  resp  : Resp
  tag   : Option Tag
  res   : Result
  deriving DecidableEq, Repr

/-- One `Exchange` call (00_scope.md R13): the byte handed to the transport and its answer, a byte or
`none` for FAIL. -/
structure Exchange where
  sent   : Byte
  answer : Option Byte
  deriving DecidableEq, Repr

/-- What the host does at a step (60_exceptions.md R242). -/
inductive HostEvent where
  /-- It puts a request on one of the ports. -/
  | request (p : PortRequest)
  /-- It asserts block reset (70_reset_and_hazards.md R250). -/
  | reset
  /-- It does nothing: the engine may take one step (60_exceptions.md R232). -/
  | tick
  deriving DecidableEq, Repr

/-- The state of one block instance with its surroundings. -/
structure State where
  /-- The parameters the block was built with (00_scope.md R7); no step changes them (log 5). -/
  cfg     : Config
  /-- The block's state (10_state.md R23). -/
  engine  : Engine
  /-- MODEL: what the host does next, oldest first (log 1). -/
  inbox   : List HostEvent
  /-- MODEL: the transport's answers already known, oldest first (log 2). -/
  answers : List (Option Byte)
  /-- MODEL: the `Exchange` calls made, oldest first (20_memory.md R64, log 3). -/
  wire    : List Exchange
  /-- MODEL: what the converter port returned last (log 4). -/
  convOut : Option ConvValue
  /-- MODEL: what the decoder port returned last (log 4). -/
  decOut  : Option DecValue
  deriving DecidableEq, Repr

/-- Why the machine stops. No instruction raises a fault: the errors of the spec are values in `res`
(60_exceptions.md R220). -/
inductive Fault where
  /-- Raised by the engine step in a state with `phase = XFER` whose record holds no byte at `idx` or no tag:
  60_exceptions.md R232 requires `idx < len(frame)`. No run reaches such a state. Safe (log 8). -/
  | malformedEngine
  deriving DecidableEq, Repr

/-- Why a step has no meaning. -/
inductive Refusal where
  /-- Raised by an arm of `exec` whose instruction has no meaning yet; no arm is left that raises it. Safe. -/
  | notModelled (mnemonic : String)
  /-- Raised by the step when the configuration is malformed (10_state.md R32: "the model refuses the
  configuration"). Safe (log 9). -/
  | malformedConfig
  deriving DecidableEq, Repr

/-- The engine record after block reset (70_reset_and_hazards.md R250). -/
def Engine.reset : Engine :=
  { phase := .idle, frame := [], ncmd := 0, idx := 0, rx := [], resp := .none, tag := none, res := .none }

/-- The machine right after reset: the engine as 70_reset_and_hazards.md R250 says, the configuration of
00_scope.md R7, and nothing asked, answered or sent yet (log 6). -/
def State.reset : State :=
  { cfg := defaultConfig, engine := Engine.reset, inbox := [], answers := [], wire := [],
    convOut := none, decOut := none }

end Sys2Proof.Machine
end

