-- ==== Sys2Proof/Machine/Ops.lean ====
section
/-!
DEFINITION. The named operations over the state: `raise` (taking an error, 00_scope.md R14), `emit` (handing
a frame to the engine, 60_exceptions.md R231), the command port's gate (R227, R229, R233), the `Exchange`
call (00_scope.md R13), the engine's steps (60_exceptions.md R232, R233) and block reset
(70_reset_and_hazards.md R250).
-/

namespace Sys2Proof.Machine

/-- A validated frame with how its response is read and its tag: what `emit(frame, resp, tag)` takes
(00_scope.md R14). -/
structure Emission where
  frame : List Byte
  resp  : Resp
  tag   : Tag
  deriving DecidableEq, Repr

/-- `raise E(info)` in a request on the command port: `res <- ERR(E)` and nothing else (00_scope.md R14,
60_exceptions.md R230). The block has no handler and no vector (R220), so nothing returns from it (R234). -/
def raise (e : Err) (s : State) : State := { s with engine := { s.engine with res := .err e } }

/-- `nresp(r)`: the response bytes of a frame (60_exceptions.md R231). -/
def nresp (cfg : Config) : Resp → Nat
  | .none => 0
  | .param a => nbytes (regWidth cfg a)
  | .status => 2

/-- `emit`: the engine takes the frame; `res` keeps the previous result (60_exceptions.md R231). -/
def emit (m : Emission) (s : State) : State :=
  { s with engine :=
      { phase := .xfer, frame := m.frame, ncmd := m.frame.length - nresp s.cfg m.resp, idx := 0, rx := [],
        resp := m.resp, tag := some m.tag, res := s.engine.res } }

/-- The command port (60_exceptions.md R227, R229, R231, R233): DESYNC before BUSY before the operation's
own checks, whose outcome is `m`. -/
def commandPort (m : Except Err Emission) (s : State) : State :=
  match s.engine.phase with
  | .desync => raise .desync s
  | .xfer => raise .engineBusy s
  | .idle => match m with
    | .error e => raise e s
    | .ok em => emit em s

/-- A value returned on the converter port (40_converter.md R124): no engine state changes. -/
def convReturn (v : ConvValue) (s : State) : State := { s with convOut := some v }

/-- A value returned on the decoder port (30_encoding.md R91): no engine state changes. -/
def decReturn (v : DecValue) (s : State) : State := { s with decOut := some v }

/-! ### The transport -/

/-- What the next `Exchange` call answers: what the host has said, else a free value (00_scope.md R13,
log 2). -/
def nextAnswer (s : State) : Option Byte :=
  match s.answers with
  | a :: _ => a
  | [] => Config.draw s.wire.length

/-- The `Exchange` call with byte `b`: one transaction is added to the wire (20_memory.md R59, R64). -/
def exchange (b : Byte) (s : State) : State :=
  { s with answers := s.answers.tail, wire := s.wire ++ [⟨b, nextAnswer s⟩] }

/-! ### The frame engine -/

/-- The engine with no frame in flight, in phase `p` and with result `r` (60_exceptions.md R232, R233). -/
def emptied (p : Phase) (r : Result) : Engine :=
  { phase := p, frame := [], ncmd := 0, idx := 0, rx := [], resp := .none, tag := none, res := r }

/-- The result of a completed frame (60_exceptions.md R232; 41_config_commands.md R132, R133;
43_stop_reset_status.md R186). The error branch is met by no frame (60_exceptions.md R226, log 14). -/
def completion (cfg : Config) (resp : Resp) (tag : Tag) (rx : List Byte) : Result :=
  match resp with
  | .none => .done tag
  | .param a => match decodeParamResponse cfg a rx with
    | .ok v => if a = statusAddr then .status tag .nonclearing v else .value tag a v
    | .error e => .err e
  | .status => .status tag .clearing (unbe rx)

/-- `transport_failure` at the current index (60_exceptions.md R233). -/
def transportFailure (s : State) : State :=
  { s with engine := emptied .desync (.err (.transportFail s.engine.idx)) }

/-- The response bytes after the byte `b` has come back at the current index (60_exceptions.md R232): bytes of
the command part are discarded (10_state.md R26). -/
def received (e : Engine) (b : Byte) : List Byte := if e.idx ≥ e.ncmd then e.rx ++ [b] else e.rx

/-- The engine after a successful exchange that returned `b` (60_exceptions.md R232): one index further, or
complete. -/
def advance (tag : Tag) (b : Byte) (s : State) : State :=
  if s.engine.idx + 1 = s.engine.frame.length then
    { s with engine := emptied .idle (completion s.cfg s.engine.resp tag (received s.engine b)) }
  else
    { s with engine := { s.engine with idx := s.engine.idx + 1, rx := received s.engine b } }

/-- What follows an answer of the transport: a byte advances the frame, FAIL ends it
(60_exceptions.md R232, R233). -/
def afterAnswer (tag : Tag) (a : Option Byte) (s : State) : State :=
  match a with
  | some b => advance tag b s
  | none => transportFailure s

/-- `step()` of the engine while `phase = XFER` (60_exceptions.md R232): one `Exchange` call. -/
def engineStep (s : State) : Host.Outcome State Fault Refusal :=
  match s.engine.frame[s.engine.idx]?, s.engine.tag with
  | some b, some tag => .next (afterAnswer tag (nextAnswer s) (exchange b s))
  | _, _ => .fault .malformedEngine

/-- The engine where the host does nothing: it steps in XFER, and never starts a frame on its own
(60_exceptions.md R236). -/
def engineTurn (s : State) : Host.Outcome State Fault Refusal :=
  match s.engine.phase with
  | .xfer => engineStep s
  | .idle => .next s
  | .desync => .next s

/-- Block reset (70_reset_and_hazards.md R250): every field of the engine record; the configuration stays
(R252), and no byte is sent (R253). -/
def blockReset (s : State) : State := { s with engine := Engine.reset }

/-! ### Taking a request from a port -/

/-- The state after the host event at the head has been taken. -/
def taken (s : State) : State := { s with inbox := s.inbox.tail }

/-- The host puts the request of an operation on its port, before everything else it does. -/
def offer (i : Instr) (s : State) : State := { s with inbox := .request (encodePort i) :: s.inbox }

end Sys2Proof.Machine
end

