-- ==== Sys2Proof/Machine/ConfigCmds.lean ====
section
/-!
DEFINITION. The configuration family: SET_PARAM, GET_PARAM and SET_LSPD_OPT (41_config_commands.md). No
rule checks one register's value against another's (R137).
-/

namespace Sys2Proof.Machine

/-- SET_PARAM's checks and frame (41_config_commands.md R131, R139): E1, then E2. -/
def setParamEmission (cfg : Config) (a v : Nat) : Except Err Emission :=
  match lookup cfg a with
  | .error e => .error e
  | .ok d =>
    match d.access with
    | .ro => .error (.readOnlyRegister a)
    | .rw => match encodeSetParam cfg a v with
      | .ok f => .ok ⟨f, .none, Kind.setParam.tag⟩
      | .error e => .error e

/-- GET_PARAM's check and frame (41_config_commands.md R132). -/
def getParamEmission (cfg : Config) (a : Nat) : Except Err Emission :=
  match lookup cfg a with
  | .error e => .error e
  | .ok d => match encodeGetParam cfg a with
    | .ok op => .ok ⟨readFrame cfg op (nbytes d.width), .param a, Kind.getParam.tag⟩
    | .error e => .error e

/-- SET_LSPD_OPT's checks and frame (41_config_commands.md R134), where both checks fail the error that
60_exceptions.md R229 puts first, E1 (log 11). The pure encoder is used, so the access mode of MIN_SPEED is not
asked. -/
def setLspdOptEmission (cfg : Config) (e : Nat) : Except Err Emission :=
  match encodeSetParam cfg minSpeedAddr 0x1000 with
  | .error err => .error err
  | .ok f => checked [checkEnable e] ⟨f, .none, Kind.setLspdOpt.tag⟩

/-- SET_PARAM (41_config_commands.md R131). -/
def execSetParam (a v : Nat) (s : State) : Host.Outcome State Fault Refusal :=
  .next (commandPort (setParamEmission s.cfg a v) s)

/-- GET_PARAM (41_config_commands.md R132). -/
def execGetParam (a : Nat) (s : State) : Host.Outcome State Fault Refusal :=
  .next (commandPort (getParamEmission s.cfg a) s)

/-- SET_LSPD_OPT (41_config_commands.md R134). -/
def execSetLspdOpt (e : Nat) (s : State) : Host.Outcome State Fault Refusal :=
  .next (commandPort (setLspdOptEmission s.cfg e) s)

end Sys2Proof.Machine
end

