-- ==== Sys2Proof/Machine/Numbers.lean ====
section
/-!
DEFINITION. The converter's arithmetic: the value of a binary64 operand (00_scope.md R11), rounding and
clamping (R12), and the forward and reverse schemes (40_converter.md R100, R115). All of it is exact
(R101): no intermediate result is rounded to a binary format.
-/

namespace Sys2Proof

/-- What a binary64 value denotes (00_scope.md R11, 40_converter.md R103). -/
inductive DoubleValue where
  | nan
  | posInf
  | negInf
  | finite (q : Rat)
  deriving DecidableEq, Repr

/-- The exponent field of a binary64 operand, bits 62:52 (log 7). -/
def doubleExp (x : Double) : Nat := bits x.toNat 62 52

/-- The fraction field of a binary64 operand, bits 51:0 (log 7). -/
def doubleFrac (x : Double) : Nat := bits x.toNat 51 0

/-- The sign bit of a binary64 operand, bit 63 (log 7). -/
def doubleSign (x : Double) : Nat := bit x.toNat 63

/-- The magnitude of a finite binary64 value with exponent field `e` and fraction field `f`: a subnormal
`f * 2^-1074`, or a normal `(2^52 + f) * 2^(e-1075)` (log 7). One of the two powers is 1. -/
def doubleMagnitude (e f : Nat) : Rat :=
  if e = 0 then (f : Rat) / ((2 ^ 1074 : Nat) : Rat)
  else (((2 ^ 52 + f) * 2 ^ (e - 1075) : Nat) : Rat) / ((2 ^ (1075 - e) : Nat) : Rat)

/-- The value of a binary64 operand: `Q(x)` for a finite one (00_scope.md R11, log 7). -/
def doubleValue (x : Double) : DoubleValue :=
  if doubleExp x = 2047 then
    if doubleFrac x ≠ 0 then .nan
    else if doubleSign x = 0 then .posInf else .negInf
  else if doubleSign x = 0 then .finite (doubleMagnitude (doubleExp x) (doubleFrac x))
  else .finite (-doubleMagnitude (doubleExp x) (doubleFrac x))

/-- `round(q)` (00_scope.md R12, 40_converter.md R102). -/
def roundRat (mode : RoundMode) (q : Rat) : Int :=
  match mode with
  | .nearestHalfAway => if 0 ≤ q then (q + 1 / 2).floor else -(-q + 1 / 2).floor
  | .truncate => if 0 ≤ q then q.floor else -(-q).floor

/-- `clamp(z, lo, hi)` (00_scope.md R12). -/
def clampInt (z lo hi : Int) : Int := if z < lo then lo else if z > hi then hi else z

/-- The forward scheme on an exact rational input (40_converter.md R100, and R123's extension of it to
rationals). -/
def convRat (mode : RoundMode) (q K off : Rat) (w : Nat) : Nat :=
  (clampInt (roundRat mode (q * K - off)) 0 (maxOf w)).toNat

/-- The forward scheme `conv(x, K, off, w)` (40_converter.md R100). -/
def conv (mode : RoundMode) (x : Double) (K off : Rat) (w : Nat) : Nat :=
  match doubleValue x with
  | .nan => 0
  | .posInf => maxOf w
  | .negInf => 0
  | .finite q => convRat mode q K off w

/-- The reverse scheme `rev(r, K, off, w)` (40_converter.md R115). -/
def rev (r : Nat) (K off : Rat) (w : Nat) : Rat := ((mask w r : Nat) + off) / K

end Sys2Proof
end

