-- ==== Sys2Proof/Machine/Converter.lean ====
section
/-!
DEFINITION. The converter port: the seven forward converters (40_converter.md R105 to R111) and the seven
reverse converters (R116 to R122). Each is a pure function of its operand and the configuration, writes no
engine state and raises no error (R124).
-/

namespace Sys2Proof

/-! ### Forward converters -/

/-- accelToReg (40_converter.md R105). -/
def accelToReg (mode : RoundMode) (x : Double) : Nat := conv mode x kAcc 0 12

/-- decToReg (40_converter.md R106): the formula of accelToReg. -/
def decToReg (mode : RoundMode) (x : Double) : Nat := conv mode x kAcc 0 12

/-- maxSpeedToReg (40_converter.md R107). -/
def maxSpeedToReg (mode : RoundMode) (x : Double) : Nat := conv mode x kMaxSpd 0 10

/-- minSpeedToReg (40_converter.md R108). -/
def minSpeedToReg (mode : RoundMode) (x : Double) : Nat := conv mode x kMinSpd 0 12

/-- fullStepSpeedToReg (40_converter.md R109). -/
def fullStepSpeedToReg (mode : RoundMode) (x : Double) : Nat := conv mode x kFsSpd offFsSpd 10

/-- intersectSpeedToReg (40_converter.md R110). -/
def intersectSpeedToReg (mode : RoundMode) (x : Double) : Nat := conv mode x kIntSpd 0 14

/-- runSpeedToReg (40_converter.md R111). -/
def runSpeedToReg (mode : RoundMode) (x : Double) : Nat := conv mode x kRunSpd 0 20

/-! ### Reverse converters -/

/-- regToAccel (40_converter.md R116). -/
def regToAccel (r : Nat) : Rat := rev r kAcc 0 12

/-- regToDecel (40_converter.md R117). -/
def regToDecel (r : Nat) : Rat := rev r kAcc 0 12

/-- regToMaxSpeed (40_converter.md R118). -/
def regToMaxSpeed (r : Nat) : Rat := rev r kMaxSpd 0 10

/-- regToMinSpeed (40_converter.md R119): the LSPD_OPT bit is masked away. -/
def regToMinSpeed (r : Nat) : Rat := rev r kMinSpd 0 12

/-- regToFullStepSpeed (40_converter.md R120). -/
def regToFullStepSpeed (r : Nat) : Rat := rev r kFsSpd offFsSpd 10

/-- regToIntersectSpeed (40_converter.md R121). -/
def regToIntersectSpeed (r : Nat) : Rat := rev r kIntSpd 0 14

/-- regToRunSpeed (40_converter.md R122). -/
def regToRunSpeed (r : Nat) : Rat := rev r kRunSpd 0 20

end Sys2Proof

namespace Sys2Proof.Machine

/-! ### Meanings -/

/-- ACC_TO_REG (40_converter.md R105). -/
def execAccToReg (x : Double) (s : State) : Host.Outcome State Fault Refusal :=
  .next (convReturn (.reg (accelToReg s.cfg.roundMode x)) s)

/-- DEC_TO_REG (40_converter.md R106). -/
def execDecToReg (x : Double) (s : State) : Host.Outcome State Fault Refusal :=
  .next (convReturn (.reg (decToReg s.cfg.roundMode x)) s)

/-- MAX_SPEED_TO_REG (40_converter.md R107). -/
def execMaxSpeedToReg (x : Double) (s : State) : Host.Outcome State Fault Refusal :=
  .next (convReturn (.reg (maxSpeedToReg s.cfg.roundMode x)) s)

/-- MIN_SPEED_TO_REG (40_converter.md R108). -/
def execMinSpeedToReg (x : Double) (s : State) : Host.Outcome State Fault Refusal :=
  .next (convReturn (.reg (minSpeedToReg s.cfg.roundMode x)) s)

/-- FS_SPD_TO_REG (40_converter.md R109). -/
def execFsSpdToReg (x : Double) (s : State) : Host.Outcome State Fault Refusal :=
  .next (convReturn (.reg (fullStepSpeedToReg s.cfg.roundMode x)) s)

/-- INT_SPD_TO_REG (40_converter.md R110). -/
def execIntSpdToReg (x : Double) (s : State) : Host.Outcome State Fault Refusal :=
  .next (convReturn (.reg (intersectSpeedToReg s.cfg.roundMode x)) s)

/-- RUN_SPEED_TO_REG (40_converter.md R111). -/
def execRunSpeedToReg (x : Double) (s : State) : Host.Outcome State Fault Refusal :=
  .next (convReturn (.reg (runSpeedToReg s.cfg.roundMode x)) s)

/-- REG_TO_ACC (40_converter.md R116). -/
def execRegToAcc (r : Nat) (s : State) : Host.Outcome State Fault Refusal :=
  .next (convReturn (.phys (regToAccel r)) s)

/-- REG_TO_DEC (40_converter.md R117). -/
def execRegToDec (r : Nat) (s : State) : Host.Outcome State Fault Refusal :=
  .next (convReturn (.phys (regToDecel r)) s)

/-- REG_TO_MAX_SPEED (40_converter.md R118). -/
def execRegToMaxSpeed (r : Nat) (s : State) : Host.Outcome State Fault Refusal :=
  .next (convReturn (.phys (regToMaxSpeed r)) s)

/-- REG_TO_MIN_SPEED (40_converter.md R119). -/
def execRegToMinSpeed (r : Nat) (s : State) : Host.Outcome State Fault Refusal :=
  .next (convReturn (.phys (regToMinSpeed r)) s)

/-- REG_TO_FS_SPD (40_converter.md R120). -/
def execRegToFsSpd (r : Nat) (s : State) : Host.Outcome State Fault Refusal :=
  .next (convReturn (.phys (regToFullStepSpeed r)) s)

/-- REG_TO_INT_SPD (40_converter.md R121). -/
def execRegToIntSpd (r : Nat) (s : State) : Host.Outcome State Fault Refusal :=
  .next (convReturn (.phys (regToIntersectSpeed r)) s)

/-- REG_TO_RUN_SPEED (40_converter.md R122). -/
def execRegToRunSpeed (r : Nat) (s : State) : Host.Outcome State Fault Refusal :=
  .next (convReturn (.phys (regToRunSpeed r)) s)

end Sys2Proof.Machine
end

