-- ==== Sys2Proof/Machine/Flags.lean ====
section
/-!
DEFINITION. The block has no flags of its own (10_state.md R30). The only flags of the spec are the fields
of the chip's status word, which the block decodes and passes through (10_state.md R39 to R41,
43_stop_reset_status.md R187, R189).
-/

namespace Sys2Proof

/-- MOT_STATUS values (10_state.md R40). -/
def motStateOf : Nat → MotState
  | 0 => .stopped
  | 1 => .accelerating
  | 2 => .decelerating
  | _ => .constantSpeed

/-- The fields of a status word under a layout (43_stop_reset_status.md R187): raw bits, no polarity
inverted. -/
def statusFields (l : StatusLayout) (path : StatusPath) (w : Nat) : StatusFields :=
  { path := path, word := w,
    hiz := bit w l.hiz, busy := bit w l.busy, swF := bit w l.swF, swEvn := bit w l.swEvn,
    dir := bit w l.dir, motStatus := motStateOf (bits w (l.motLow + 1) l.motLow),
    notPerfCmd := bit w l.notPerfCmd, wrongCmd := bit w l.wrongCmd, uvlo := bit w l.uvlo,
    thWrn := bit w l.thWrn, thSd := bit w l.thSd, ocd := bit w l.ocd,
    stepLossA := bit w l.stepLossA, stepLossB := bit w l.stepLossB, sckMod := bit w l.sckMod }

/-- decodeStatus (43_stop_reset_status.md R187): the fields of two bytes, or E5. -/
def decodeStatus (cfg : Config) (bytes : List Byte) (path : StatusPath) : Except Err StatusFields :=
  if bytes.length = 2 then .ok (statusFields cfg.statusLayout path (unbe bytes))
  else .error (.responseLength bytes.length)

end Sys2Proof
end

