-- ==== Sys2Proof/Machine/Decoders.lean ====
section
/-!
DEFINITION. The decoder port: decodeParamResponse (41_config_commands.md R135), decodeStatus
(43_stop_reset_status.md R187), decodeCommand (44_decoders.md R200) and decodeFrame (R208). They are pure: no
engine state changes, and an error is the value returned (00_scope.md R14).
-/

namespace Sys2Proof.Machine

/-- The value of a pure function on the decoder port: its result, or `ERR(code)` (00_scope.md R14). -/
def decResult {α : Type} (wrap : α → DecValue) : Except Err α → DecValue
  | .ok x => wrap x
  | .error e => .err e

/-- DECODE_PARAM (41_config_commands.md R135). -/
def execDecodeParam (a : Nat) (bytes : List Byte) (s : State) : Host.Outcome State Fault Refusal :=
  .next (decReturn (decResult .param (decodeParamResponse s.cfg a bytes)) s)

/-- DECODE_STATUS (43_stop_reset_status.md R187). -/
def execDecodeStatus (bytes : List Byte) (path : StatusPath) (s : State) :
    Host.Outcome State Fault Refusal :=
  .next (decReturn (decResult .status (decodeStatus s.cfg bytes path)) s)

/-- DECODE_COMMAND (44_decoders.md R200). -/
def execDecodeCommand (b : Byte) (s : State) : Host.Outcome State Fault Refusal :=
  .next (decReturn (decResult .command (decodeCommand s.cfg b)) s)

/-- DECODE_FRAME (44_decoders.md R208). -/
def execDecodeFrame (bytes : List Byte) (s : State) : Host.Outcome State Fault Refusal :=
  .next (decReturn (decResult .request (decodeFrame s.cfg bytes)) s)

end Sys2Proof.Machine
end

