-- ==== Sys2Proof/Machine/Motion.lean ====
section
/-!
DEFINITION. The motion family: RUN, MOVE, GOTO, GOTO_DIR, GO_UNTIL, RELEASE_SW, GO_HOME and GO_MARK
(42_motion_commands.md). Arguments are range-checked, never masked (R150), and are raw patterns (R159).
-/

namespace Sys2Proof.Machine

/-- A motion frame: no response, and the tag of its kind (42_motion_commands.md R160). -/
def motionEmission (k : Kind) (frame : List Byte) : Emission := ⟨frame, .none, k.tag⟩

/-- RUN (42_motion_commands.md R151). -/
def execRun (d v : Nat) (s : State) : Host.Outcome State Fault Refusal :=
  .next (commandPort (checked [checkDir d, checkArg v 20] (motionEmission .run (dirFrame 0x50 d v))) s)

/-- MOVE (42_motion_commands.md R152). -/
def execMove (d n : Nat) (s : State) : Host.Outcome State Fault Refusal :=
  .next (commandPort (checked [checkDir d, checkArg n 22] (motionEmission .move (dirFrame 0x40 d n))) s)

/-- GOTO (42_motion_commands.md R153). -/
def execGoto (p : Nat) (s : State) : Host.Outcome State Fault Refusal :=
  .next (commandPort (checked [checkArg p 22] (motionEmission .goto (0x60 :: be 3 p))) s)

/-- GOTO_DIR (42_motion_commands.md R154). -/
def execGotoDir (d p : Nat) (s : State) : Host.Outcome State Fault Refusal :=
  .next (commandPort (checked [checkDir d, checkArg p 22] (motionEmission .gotoDir (dirFrame 0x68 d p))) s)

/-- GO_UNTIL (42_motion_commands.md R155). -/
def execGoUntil (c d v : Nat) (s : State) : Host.Outcome State Fault Refusal :=
  .next (commandPort (checked [checkAct c, checkDir d, checkArg v 20]
    (motionEmission .goUntil (actDirOp 0x82 c d :: be 3 v))) s)

/-- RELEASE_SW (42_motion_commands.md R156). -/
def execReleaseSw (c d : Nat) (s : State) : Host.Outcome State Fault Refusal :=
  .next (commandPort (checked [checkAct c, checkDir d] (motionEmission .releaseSw [actDirOp 0x92 c d])) s)

/-- GO_HOME (42_motion_commands.md R157). -/
def execGoHome (s : State) : Host.Outcome State Fault Refusal :=
  .next (commandPort (.ok (motionEmission .goHome [0x70])) s)

/-- GO_MARK (42_motion_commands.md R158). -/
def execGoMark (s : State) : Host.Outcome State Fault Refusal :=
  .next (commandPort (.ok (motionEmission .goMark [0x78])) s)

end Sys2Proof.Machine
end

