-- ==== Sys2Proof/Machine/StopResetStatus.lean ====
section
/-!
DEFINITION. The stop, reset and status families (43_stop_reset_status.md). None of them reads an operand, so
none raises E1 to E4.
-/

namespace Sys2Proof.Machine

/-- A one-byte frame with no response (30_encoding.md R71, F-OP). -/
def opEmission (k : Kind) (op : Byte) : Emission := ⟨[op], .none, k.tag⟩

/-- SOFT_STOP (43_stop_reset_status.md R180). -/
def execSoftStop (s : State) : Host.Outcome State Fault Refusal :=
  .next (commandPort (.ok (opEmission .softStop 0xB0)) s)

/-- HARD_STOP (43_stop_reset_status.md R181). -/
def execHardStop (s : State) : Host.Outcome State Fault Refusal :=
  .next (commandPort (.ok (opEmission .hardStop 0xB8)) s)

/-- SOFT_HIZ (43_stop_reset_status.md R182). -/
def execSoftHiz (s : State) : Host.Outcome State Fault Refusal :=
  .next (commandPort (.ok (opEmission .softHiz 0xA0)) s)

/-- HARD_HIZ (43_stop_reset_status.md R183). -/
def execHardHiz (s : State) : Host.Outcome State Fault Refusal :=
  .next (commandPort (.ok (opEmission .hardHiz 0xA8)) s)

/-- RESET_POS (43_stop_reset_status.md R184). -/
def execResetPos (s : State) : Host.Outcome State Fault Refusal :=
  .next (commandPort (.ok (opEmission .resetPos 0xD8)) s)

/-- RESET_DEVICE (43_stop_reset_status.md R185): it resets the chip, not the block
(70_reset_and_hazards.md R253). -/
def execResetDevice (s : State) : Host.Outcome State Fault Refusal :=
  .next (commandPort (.ok (opEmission .resetDevice 0xC0)) s)

/-- GET_STATUS (43_stop_reset_status.md R186): the clearing path (R188). -/
def execGetStatus (s : State) : Host.Outcome State Fault Refusal :=
  .next (commandPort (.ok ⟨readFrame s.cfg 0xD0 2, .status, Kind.getStatus.tag⟩) s)

end Sys2Proof.Machine
end

