-- ==== Sys2Proof/Machine/Dispatch.lean ====
section
/-!
DEFINITION. The meaning of every operation: one arm for each constructor of `Instr`, one direct call each.
-/

namespace Sys2Proof.Machine

def exec (i : Instr) (s : State) : Host.Outcome State Fault Refusal :=
  match i with
  | .setParam a v => Sys2Proof.Machine.execSetParam a v s
  | .getParam a => Sys2Proof.Machine.execGetParam a s
  | .setLspdOpt e => Sys2Proof.Machine.execSetLspdOpt e s
  | .run d v => Sys2Proof.Machine.execRun d v s
  | .move d n => Sys2Proof.Machine.execMove d n s
  | .goto p => Sys2Proof.Machine.execGoto p s
  | .gotoDir d p => Sys2Proof.Machine.execGotoDir d p s
  | .goUntil c d v => Sys2Proof.Machine.execGoUntil c d v s
  | .releaseSw c d => Sys2Proof.Machine.execReleaseSw c d s
  | .goHome => Sys2Proof.Machine.execGoHome s
  | .goMark => Sys2Proof.Machine.execGoMark s
  | .softStop => Sys2Proof.Machine.execSoftStop s
  | .hardStop => Sys2Proof.Machine.execHardStop s
  | .softHiz => Sys2Proof.Machine.execSoftHiz s
  | .hardHiz => Sys2Proof.Machine.execHardHiz s
  | .resetPos => Sys2Proof.Machine.execResetPos s
  | .resetDevice => Sys2Proof.Machine.execResetDevice s
  | .getStatus => Sys2Proof.Machine.execGetStatus s
  | .accToReg x => Sys2Proof.Machine.execAccToReg x s
  | .decToReg x => Sys2Proof.Machine.execDecToReg x s
  | .maxSpeedToReg x => Sys2Proof.Machine.execMaxSpeedToReg x s
  | .minSpeedToReg x => Sys2Proof.Machine.execMinSpeedToReg x s
  | .fsSpdToReg x => Sys2Proof.Machine.execFsSpdToReg x s
  | .intSpdToReg x => Sys2Proof.Machine.execIntSpdToReg x s
  | .runSpeedToReg x => Sys2Proof.Machine.execRunSpeedToReg x s
  | .regToAcc r => Sys2Proof.Machine.execRegToAcc r s
  | .regToDec r => Sys2Proof.Machine.execRegToDec r s
  | .regToMaxSpeed r => Sys2Proof.Machine.execRegToMaxSpeed r s
  | .regToMinSpeed r => Sys2Proof.Machine.execRegToMinSpeed r s
  | .regToFsSpd r => Sys2Proof.Machine.execRegToFsSpd r s
  | .regToIntSpd r => Sys2Proof.Machine.execRegToIntSpd r s
  | .regToRunSpeed r => Sys2Proof.Machine.execRegToRunSpeed r s
  | .decodeParam a bytes => Sys2Proof.Machine.execDecodeParam a bytes s
  | .decodeStatus bytes path => Sys2Proof.Machine.execDecodeStatus bytes path s
  | .decodeCommand b => Sys2Proof.Machine.execDecodeCommand b s
  | .decodeFrame bytes => Sys2Proof.Machine.execDecodeFrame bytes s

end Sys2Proof.Machine
end

