-- ==== Sys2Proof/Machine/Step.lean ====
section
/-!
DEFINITION. One step of the machine: what the host does next (`inbox`, log 1) and, where the host does
nothing, one turn of the frame engine. The block fetches no instructions (10_state.md R22): a request is
taken from a port.
-/

namespace Sys2Proof.Machine

/-- One step. A malformed configuration is refused (10_state.md R32). A request is decoded and executed at
once, in any phase (60_exceptions.md R242); block reset acts at once (70_reset_and_hazards.md R250); else the
engine takes its turn (60_exceptions.md R232). -/
def step (s : State) : Host.Outcome State Fault Refusal :=
  if configOk s.cfg then
    match s.inbox with
    | [] => engineTurn s
    | .tick :: _ => engineTurn (taken s)
    | .reset :: _ => .next (blockReset (taken s))
    | .request p :: _ => exec (decodePort p) (taken s)
  else .refused .malformedConfig

/-- `s` with the operation the table word spells offered on its port as the next thing the host does, so that
the very next step runs it (log 12); `s` itself where the word spells none. -/
def State.withFetchWord (s : State) (nbits w : Nat) : State :=
  match decodeTableWord nbits w with
  | some i => offer i s
  | none => s

end Sys2Proof.Machine
end

