-- ==== Sys2Proof/Machine/Assembler.lean ====
section
/-!
DEFINITION. The assembler syntax of the command set (30_encoding.md R87, R88) and the pseudo-instructions
(R89). Both belong to the host: a line is turned into the record on the command port, and a
pseudo-instruction into a converter call followed by one record. Text is a list of characters, which Lean's
kernel evaluates.
-/

namespace Sys2Proof

/-- The mnemonic of a kind (30_encoding.md R87). -/
def kindText : Kind → List Char
  | .setParam => ['S', 'E', 'T', '_', 'P', 'A', 'R', 'A', 'M']
  | .getParam => ['G', 'E', 'T', '_', 'P', 'A', 'R', 'A', 'M']
  | .setLspdOpt => ['S', 'E', 'T', '_', 'L', 'S', 'P', 'D', '_', 'O', 'P', 'T']
  | .run => ['R', 'U', 'N']
  | .move => ['M', 'O', 'V', 'E']
  | .goto => ['G', 'O', 'T', 'O']
  | .gotoDir => ['G', 'O', 'T', 'O', '_', 'D', 'I', 'R']
  | .goUntil => ['G', 'O', '_', 'U', 'N', 'T', 'I', 'L']
  | .releaseSw => ['R', 'E', 'L', 'E', 'A', 'S', 'E', '_', 'S', 'W']
  | .goHome => ['G', 'O', '_', 'H', 'O', 'M', 'E']
  | .goMark => ['G', 'O', '_', 'M', 'A', 'R', 'K']
  | .softStop => ['S', 'O', 'F', 'T', '_', 'S', 'T', 'O', 'P']
  | .hardStop => ['H', 'A', 'R', 'D', '_', 'S', 'T', 'O', 'P']
  | .softHiz => ['S', 'O', 'F', 'T', '_', 'H', 'I', 'Z']
  | .hardHiz => ['H', 'A', 'R', 'D', '_', 'H', 'I', 'Z']
  | .resetPos => ['R', 'E', 'S', 'E', 'T', '_', 'P', 'O', 'S']
  | .resetDevice => ['R', 'E', 'S', 'E', 'T', '_', 'D', 'E', 'V', 'I', 'C', 'E']
  | .getStatus => ['G', 'E', 'T', '_', 'S', 'T', 'A', 'T', 'U', 'S']

/-- The name of a register (10_state.md R33, R34). -/
def regText : RegName → List Char
  | .absPos => ['A', 'B', 'S', '_', 'P', 'O', 'S']
  | .speed => ['S', 'P', 'E', 'E', 'D']
  | .acc => ['A', 'C', 'C']
  | .dec => ['D', 'E', 'C']
  | .maxSpeed => ['M', 'A', 'X', '_', 'S', 'P', 'E', 'E', 'D']
  | .minSpeed => ['M', 'I', 'N', '_', 'S', 'P', 'E', 'E', 'D']
  | .fsSpd => ['F', 'S', '_', 'S', 'P', 'D']
  | .stepMode => ['S', 'T', 'E', 'P', '_', 'M', 'O', 'D', 'E']
  | .alarmEn => ['A', 'L', 'A', 'R', 'M', '_', 'E', 'N']
  | .config => ['C', 'O', 'N', 'F', 'I', 'G']
  | .status => ['S', 'T', 'A', 'T', 'U', 'S']
  | .elPos => ['E', 'L', '_', 'P', 'O', 'S']
  | .markPos => ['M', 'A', 'R', 'K']
  | .kvalHold => ['K', 'V', 'A', 'L', '_', 'H', 'O', 'L', 'D']
  | .kvalRun => ['K', 'V', 'A', 'L', '_', 'R', 'U', 'N']
  | .kvalAcc => ['K', 'V', 'A', 'L', '_', 'A', 'C', 'C']
  | .kvalDec => ['K', 'V', 'A', 'L', '_', 'D', 'E', 'C']
  | .intSpd => ['I', 'N', 'T', '_', 'S', 'P', 'D']
  | .stSlp => ['S', 'T', '_', 'S', 'L', 'P']
  | .fnSlpAcc => ['F', 'N', '_', 'S', 'L', 'P', '_', 'A', 'C', 'C']
  | .fnSlpDec => ['F', 'N', '_', 'S', 'L', 'P', '_', 'D', 'E', 'C']
  | .kTherm => ['K', '_', 'T', 'H', 'E', 'R', 'M']
  | .adcOut => ['A', 'D', 'C', '_', 'O', 'U', 'T']
  | .ocdTh => ['O', 'C', 'D', '_', 'T', 'H']
  | .stallTh => ['S', 'T', 'A', 'L', 'L', '_', 'T', 'H']

/-- Every kind, in the order of 30_encoding.md R92. -/
def allKinds : List Kind :=
  [.setParam, .getParam, .setLspdOpt, .run, .move, .goto, .gotoDir, .goUntil, .releaseSw,
   .goHome, .goMark, .softStop, .hardStop, .softHiz, .hardHiz, .resetPos, .resetDevice, .getStatus]

/-- The words of a line, separated by spaces and commas (log 17); `w` is the word being read, reversed. -/
def wordsFrom (w : List Char) : List Char → List (List Char)
  | [] => if w = [] then [] else [w.reverse]
  | c :: cs =>
    if c = ' ' ∨ c = ',' then (if w = [] then wordsFrom [] cs else w.reverse :: wordsFrom [] cs)
    else wordsFrom (c :: w) cs

/-- The spellings of each digit, in the order of its value (30_encoding.md R88: decimal, or `0x` hex). -/
def digitTexts : List (List Char) :=
  ['0', '1', '2', '3', '4', '5', '6', '7', '8', '9'].map (fun c => [c])
    ++ [['a', 'A'], ['b', 'B'], ['c', 'C'], ['d', 'D'], ['e', 'E'], ['f', 'F']]

/-- The value of a digit: its place among the spellings. -/
def digitOf (c : Char) : Option Nat := digitTexts.findIdx? (fun t => t.contains c)

/-- A digit string in a base, with the value read so far. -/
def digitsFrom (base acc : Nat) : List Char → Option Nat
  | [] => some acc
  | c :: cs => match digitOf c with
    | some d => if d < base then digitsFrom base (acc * base + d) cs else none
    | none => none

/-- A natural number in decimal or `0x` hexadecimal (30_encoding.md R88). -/
def natOfText : List Char → Option Nat
  | '0' :: 'x' :: c :: cs => digitsFrom 16 0 (c :: cs)
  | c :: cs => digitsFrom 10 0 (c :: cs)
  | [] => none

/-- The address of a register name, if the table has it. -/
def regByName (cfg : Config) (n : RegName) : Option Nat :=
  (cfg.regTable.find? (fun d => d.name == n)).map (fun d => d.addr)

/-- `<reg>`: a register name of the table, or a number (30_encoding.md R88). -/
def regOfText (cfg : Config) (t : List Char) : Option Nat :=
  match cfg.regTable.find? (fun d => regText d.name == t) with
  | some d => some d.addr
  | none => natOfText t

/-- `<dir>`: FWD, REV or a number (30_encoding.md R88, 10_state.md R43). -/
def dirOfText (t : List Char) : Option Nat :=
  if t = ['F', 'W', 'D'] then some 1 else if t = ['R', 'E', 'V'] then some 0 else natOfText t

/-- `<act>`: RESET, COPY or a number (30_encoding.md R88, 10_state.md R43). -/
def actOfText (cfg : Config) (t : List Char) : Option Nat :=
  if t = ['R', 'E', 'S', 'E', 'T'] then some cfg.actCode.resetAbsPos
  else if t = ['C', 'O', 'P', 'Y'] then some cfg.actCode.copyToMark
  else natOfText t

/-- The record of a kind and its operand words (30_encoding.md R87). Undefined codes and out-of-range numbers
are carried and refused by the request (R88). -/
def recordOf (cfg : Config) : Kind → List (List Char) → Option Request
  | .setParam, [r, v] => match regOfText cfg r, natOfText v with
    | some a, some n => some { op := .setParam, reg := a, value := n }
    | _, _ => none
  | .getParam, [r] => (regOfText cfg r).map (fun a => { op := .getParam, reg := a })
  | .setLspdOpt, [e] => (natOfText e).map (fun n => { op := .setLspdOpt, enable := n })
  | .run, [d, v] => dirRecord .run d v
  | .move, [d, v] => dirRecord .move d v
  | .goto, [v] => (natOfText v).map (fun n => { op := .goto, value := n })
  | .gotoDir, [d, v] => dirRecord .gotoDir d v
  | .goUntil, [c, d, v] => match actOfText cfg c, dirOfText d, natOfText v with
    | some c, some d, some n => some { op := .goUntil, act := c, dir := d, value := n }
    | _, _, _ => none
  | .releaseSw, [c, d] => match actOfText cfg c, dirOfText d with
    | some c, some d => some { op := .releaseSw, act := c, dir := d }
    | _, _ => none
  | .goHome, [] => some { op := .goHome }
  | .goMark, [] => some { op := .goMark }
  | .softStop, [] => some { op := .softStop }
  | .hardStop, [] => some { op := .hardStop }
  | .softHiz, [] => some { op := .softHiz }
  | .hardHiz, [] => some { op := .hardHiz }
  | .resetPos, [] => some { op := .resetPos }
  | .resetDevice, [] => some { op := .resetDevice }
  | .getStatus, [] => some { op := .getStatus }
  | _, _ => none
where
  /-- A record with a direction and a value. -/
  dirRecord (k : Kind) (d v : List Char) : Option Request :=
    match dirOfText d, natOfText v with
    | some d, some n => some { op := k, dir := d, value := n }
    | _, _ => none

/-- One line of a program: the record it puts on the command port (30_encoding.md R87). -/
def parseLine (cfg : Config) (line : List Char) : Option Request :=
  match wordsFrom [] line with
  | [] => none
  | m :: ops => match allKinds.find? (fun k => kindText k == m) with
    | some k => recordOf cfg k ops
    | none => none

/-! ### Pseudo-instructions -/

/-- The pseudo-instructions of 30_encoding.md R89; `x` is a binary64 operand. -/
inductive Pseudo where
  | setAcc (x : Double)
  | setDec (x : Double)
  | setMaxSpeed (x : Double)
  | setMinSpeed (x : Double) (l : Fin 2)
  | setFsSpd (x : Double)
  | setIntSpd (x : Double)
  | runAt (dir : Nat) (x : Double)
  | goUntilAt (act dir : Nat) (x : Double)
  deriving DecidableEq, Repr

/-- The record a register write expands to; `none` if the table has no register of that name. -/
def writeRecord (cfg : Config) (n : RegName) (v : Nat) : Option Request :=
  (regByName cfg n).map (fun a => { op := .setParam, reg := a, value := v })

/-- The expansion of a pseudo-instruction (30_encoding.md R89). -/
def expandPseudo (cfg : Config) : Pseudo → Option Request
  | .setAcc x => writeRecord cfg .acc (accelToReg cfg.roundMode x)
  | .setDec x => writeRecord cfg .dec (decToReg cfg.roundMode x)
  | .setMaxSpeed x => writeRecord cfg .maxSpeed (maxSpeedToReg cfg.roundMode x)
  | .setMinSpeed x l => writeRecord cfg .minSpeed (l.val * 0x1000 + minSpeedToReg cfg.roundMode x)
  | .setFsSpd x => writeRecord cfg .fsSpd (fullStepSpeedToReg cfg.roundMode x)
  | .setIntSpd x => writeRecord cfg .intSpd (intersectSpeedToReg cfg.roundMode x)
  | .runAt d x => some { op := .run, dir := d, value := runSpeedToReg cfg.roundMode x }
  | .goUntilAt c d x => some { op := .goUntil, act := c, dir := d, value := runSpeedToReg cfg.roundMode x }

end Sys2Proof
end

