-- ==== Sys2Proof/Machine/Caller.lean ====
section
/-!
DEFINITION. What the spec says of the block's caller: the controller state `C` and the last motion kind `L`
it keeps, and the errata stop it must interpose (70_reset_and_hazards.md R257, R259, R260). The block holds
none of it (00_scope.md R3, log 16); it is computed from the tags the block reports.
-/

namespace Sys2Proof.Machine

/-- The values of the controller state `C` (70_reset_and_hazards.md R259). -/
inductive CallerMode where
  | unknown | idle | configuring
  | motionPending (k : Kind)
  deriving DecidableEq, Repr

/-- What the caller keeps: `C`, and `L`, the last motion kind not yet cleared (70_reset_and_hazards.md R259). -/
structure Caller where
  mode : CallerMode
  last : Option Kind
  deriving DecidableEq, Repr

/-- The caller at controller reset (70_reset_and_hazards.md R259, 90_conflicts.md C5). -/
def callerReset : Caller := { mode := .unknown, last := none }

/-- The update of `C` and `L` when a frame with this tag completes (70_reset_and_hazards.md R259). -/
def callerComplete (c : Caller) (tag : Tag) : Caller :=
  match tag.family with
  | .config => { c with mode := .configuring }
  | .motion => { mode := .motionPending tag.kind, last := some tag.kind }
  | .stop => { mode := .idle, last := none }
  | .reset => if tag.kind = .resetDevice then { mode := .unknown, last := none } else c
  | .status => c

/-- The tag a result carries, if a frame completed (10_state.md R28, R29). -/
def resultTag : Result → Option Tag
  | .none => none
  | .err _ => none
  | .done t => some t
  | .value t _ _ => some t
  | .status t _ _ => some t

/-- The update of the caller from the result of a request: a refused one changes nothing
(70_reset_and_hazards.md R259). -/
def callerObserve (c : Caller) (r : Result) : Caller :=
  match resultTag r with
  | some t => callerComplete c t
  | none => c

/-- The duty of the errata stop: before a motion frame of kind `k`, SOFT_STOP and the busy wait are owed
(70_reset_and_hazards.md R259, R260). -/
def stopOwed (c : Caller) (k : Kind) : Bool :=
  match c.last with
  | none => false
  | some k' => decide (k' ≠ k)

/-- The source's literal rule, which looks at `C` alone (70_reset_and_hazards.md R259, 90_conflicts.md C7). -/
def literalStopOwed (c : Caller) (k : Kind) : Bool :=
  match c.mode with
  | .motionPending k' => decide (k' ≠ k)
  | _ => false

/-- The kind of a command-port operation (30_encoding.md R92). -/
def instrKind : Instr → Option Kind
  | .setParam _ _ => some .setParam
  | .getParam _ => some .getParam
  | .setLspdOpt _ => some .setLspdOpt
  | .run _ _ => some .run
  | .move _ _ => some .move
  | .goto _ => some .goto
  | .gotoDir _ _ => some .gotoDir
  | .goUntil _ _ _ => some .goUntil
  | .releaseSw _ _ => some .releaseSw
  | .goHome => some .goHome
  | .goMark => some .goMark
  | .softStop => some .softStop
  | .hardStop => some .hardStop
  | .softHiz => some .softHiz
  | .hardHiz => some .hardHiz
  | .resetPos => some .resetPos
  | .resetDevice => some .resetDevice
  | .getStatus => some .getStatus
  | .accToReg _ | .decToReg _ | .maxSpeedToReg _ | .minSpeedToReg _ | .fsSpdToReg _ => none
  | .intSpdToReg _ | .runSpeedToReg _ => none
  | .regToAcc _ | .regToDec _ | .regToMaxSpeed _ | .regToMinSpeed _ | .regToFsSpd _ => none
  | .regToIntSpd _ | .regToRunSpeed _ => none
  | .decodeParam _ _ | .decodeStatus _ _ | .decodeCommand _ | .decodeFrame _ => none

/-- A caller that follows its duties may issue the operation: it waits for the frame in flight
(70_reset_and_hazards.md R257) and owes no errata stop (R259). Converter and decoder calls are free at any
time (60_exceptions.md R242). -/
def callerMayIssue (c : Caller) (p : Phase) (i : Instr) : Bool :=
  match instrKind i with
  | none => true
  | some k => decide (p ≠ .xfer) && (decide (k.family ≠ .motion) || !stopOwed c k)

end Sys2Proof.Machine
end

