-- ==== Sys2Proof/Safety.lean ====
section
/-!
DEFINITION. The terms the claims use: when an engine record is one the spec allows (10_state.md R25, R26),
when a state is (10_state.md R32), the states a command leaves (60_exceptions.md R230, R231), and what the
bytes on the wire are (20_memory.md R64).
-/

namespace Sys2Proof.Safety

open Sys2Proof.Machine

/-- An operation of the command port (30_encoding.md R92). -/
def IsCommand (i : Instr) : Prop := (instrKind i).isSome = true

/-- An operation of the converter port (30_encoding.md R90). -/
def isConverter : Instr → Bool
  | .accToReg _ | .decToReg _ | .maxSpeedToReg _ | .minSpeedToReg _ | .fsSpdToReg _ => true
  | .intSpdToReg _ | .runSpeedToReg _ => true
  | .regToAcc _ | .regToDec _ | .regToMaxSpeed _ | .regToMinSpeed _ | .regToFsSpd _ => true
  | .regToIntSpd _ | .regToRunSpeed _ => true
  | _ => false

/-- An operation of the decoder port (30_encoding.md R91). -/
def isDecoder : Instr → Bool
  | .decodeParam _ _ | .decodeStatus _ _ | .decodeCommand _ | .decodeFrame _ => true
  | _ => false

/-- How the response of a command is read (10_state.md R27): a GET_PARAM's as its register, a GET_STATUS's as
the status word, and no other command has one. -/
def respOf (c : Cmd) : Resp :=
  match c.kind with
  | .getParam => .param (c.a.getD 0)
  | .getStatus => .status
  | _ => .none

/-- The frame in flight is one frame of one command (10_state.md R25, R27, R28; 30_encoding.md R71, R81, R86):
its opcode byte decodes to a command of the tag's kind with these lengths and this response, and the bytes
after the command part are FILLER. -/
def frameOk (cfg : Config) (e : Engine) : Bool :=
  match e.frame, e.tag with
  | op :: _, some tag =>
    match decodeCommand cfg op with
    | .ok c =>
      decide (tag = c.kind.tag) && decide (c.ncmd = e.ncmd) && decide (c.ncmd + c.nresp = e.frame.length)
        && decide (e.resp = respOf c)
        && decide (e.frame.drop e.ncmd = List.replicate c.nresp cfg.filler)
    | .error _ => false
  | _, _ => false

/-- The engine record of a frame in flight (10_state.md R25, R26): `1 ≤ ncmd ≤ len(frame) ≤ 4`,
`idx < len(frame)` between steps, `len(rx) = max(0, idx - ncmd)`, and never both a payload and fillers. -/
def flightOk (cfg : Config) (e : Engine) : Bool :=
  decide (1 ≤ e.ncmd) && decide (e.ncmd ≤ e.frame.length) && decide (e.frame.length ≤ 4)
  && decide (e.idx < e.frame.length) && decide (e.rx.length = e.idx - e.ncmd)
  && (decide (e.ncmd = 1) || decide (e.ncmd = e.frame.length)) && frameOk cfg e

/-- The engine record is one the spec allows: a frame in flight in XFER, and no trace of a frame otherwise
(10_state.md R23 to R28, 60_exceptions.md R232, R233). -/
def engineOk (cfg : Config) (e : Engine) : Bool :=
  match e.phase with
  | .xfer => flightOk cfg e
  | .idle => decide (e = emptied .idle e.res)
  | .desync => decide (e = emptied .desync e.res)

/-- The invariant of the machine: a well-formed configuration and an allowed engine record. -/
def Inv (s : State) : Prop := configOk s.cfg = true ∧ engineOk s.cfg s.engine = true

/-- `s` after a command-port request ended with the error `e`: `res` is written and nothing else
(60_exceptions.md R230). -/
def refusedWith (e : Err) (s : State) : State := { s with engine := { s.engine with res := .err e } }

/-- `s` with another content of the result register. -/
def withRes (r : Result) (s : State) : State := { s with engine := { s.engine with res := r } }

/-- `s` with the frame `f`, whose first `n` bytes are the command part, in flight (60_exceptions.md R231):
`res` is as it was. -/
def inFlight (f : List Byte) (n : Nat) (r : Resp) (t : Tag) (s : State) : State :=
  { s with engine :=
      { phase := .xfer, frame := f, ncmd := n, idx := 0, rx := [], resp := r, tag := some t,
        res := s.engine.res } }

/-- The big-endian bytes of a 3-byte payload, written out (30_encoding.md R80). -/
def bytes3 (v : Nat) : List Byte :=
  [BitVec.ofNat 8 (v / 65536), BitVec.ofNat 8 (v / 256), BitVec.ofNat 8 v]

/-- The big-endian bytes of a register payload of width `w`, written out (00_scope.md R9, R10). -/
def regBytes (w v : Nat) : List Byte :=
  if w ≤ 8 then [BitVec.ofNat 8 v]
  else if w ≤ 16 then [BitVec.ofNat 8 (v / 256), BitVec.ofNat 8 v]
  else bytes3 v

/-- The result a completed frame of the operation leaves when the transport has answered `bytes` to its bytes
(60_exceptions.md R232; 41_config_commands.md R131 to R134; 43_stop_reset_status.md R186): the answers to the
opcode byte are discarded, a register value is masked to its width, and a status word carries its path. -/
def finalResult (cfg : Config) (i : Instr) (bytes : List Byte) : Option Result :=
  match i with
  | .getParam a =>
    let v := unbe (bytes.drop 1) % 2 ^ regWidth cfg a
    if a = 0x19 then some (.status ⟨.config, .getParam⟩ .nonclearing v)
    else some (.value ⟨.config, .getParam⟩ a v)
  | .getStatus => some (.status ⟨.status, .getStatus⟩ .clearing (unbe (bytes.drop 1)))
  | i => (instrKind i).map (fun k => .done k.tag)

/-- The transactions of a frame whose bytes were answered one by one (20_memory.md R59, R64). -/
def transactions (frame answers : List Byte) : List Exchange :=
  List.zipWith (fun b a => ⟨b, some a⟩) frame answers

/-- The order of binary64 values, NaN in no order with any (40_converter.md R113). -/
def doubleLe : DoubleValue → DoubleValue → Prop
  | .negInf, .negInf => True
  | .negInf, .finite _ => True
  | .negInf, .posInf => True
  | .finite p, .finite q => p ≤ q
  | .finite _, .posInf => True
  | .posInf, .posInf => True
  | _, _ => False

/-- The seven quantities of the converter: scale, offset and width (00_scope.md R7; 40_converter.md R105 to
R111). -/
def quantities : List (Rat × Rat × Nat) :=
  [(137438 / 1000000, 0, 12), (137438 / 1000000, 0, 12), (65536 / 1000000, 0, 10), (41943 / 10000, 0, 12),
   (65536 / 1000000, 1 / 2, 10), (41943 / 10000, 0, 14), (67106 / 1000, 0, 20)]

/-- The caller after a sequence of completed frames from controller reset (70_reset_and_hazards.md R259). -/
def callerAfter (tags : List Tag) : Caller := tags.foldl callerComplete callerReset

/-- The host events that let a frame of `n` bytes run to its end. -/
def ticks (n : Nat) : List HostEvent := List.replicate n .tick

end Sys2Proof.Safety
end

