-- ==== Sys2Proof/Certificates/Slice0/Obligations.lean ====
section
/-!
DEFINITION. The statements for the provers. Each docstring names the rules of spec/ it formalises.
-/

open Sys2Proof Sys2Proof.Machine Sys2Proof.Safety

/-! ### Reset and configuration -/

/-- 70_reset_and_hazards.md R250: block reset, in any state, sets every field of the engine record (so no remaining
byte of an aborted frame is sent), reset leaves those values, and block reset is the only way out of DESYNC. THE
MODEL'S CHOICE for its own fields: the event is taken from the inbox (log 1) and the others stay (log 6). -/
def Obligations.BlockResetEmptiesEngine : Prop :=
  (∀ (s : State) (rest : List HostEvent), configOk s.cfg = true → s.inbox = .reset :: rest →
    step s = .next { s with
      inbox := rest,
      engine := { phase := .idle, frame := [], ncmd := 0, idx := 0, rx := [], resp := .none, tag := none, res := .none } }) ∧
  State.reset.engine = { phase := .idle, frame := [], ncmd := 0, idx := 0, rx := [], resp := .none, tag := none, res := .none } ∧
  (∀ s t : State, step s = .next t → s.engine.phase = .desync → t.engine.phase ≠ .desync →
    s.inbox.head? = some .reset)

/-- 70_reset_and_hazards.md R251: `res = NONE` after block reset, no other step makes it NONE, and NONE does not
outlive the end of a request: a request that is refused (that does not take the engine from IDLE to XFER), a frame
that completes and a transport failure each leave another result. -/
def Obligations.ResultNoneMeansNoRequestEnded : Prop :=
  State.reset.engine.res = .none ∧
  (∀ s t : State, step s = .next t → s.inbox.head? = some .reset → t.engine.res = .none) ∧
  (∀ s t : State, step s = .next t → s.engine.res ≠ .none → t.engine.res = .none →
    s.inbox.head? = some .reset) ∧
  (∀ (s t : State) (q : Request), step s = .next t → s.inbox.head? = some (.request (.command q)) →
    ¬ (s.engine.phase = .idle ∧ t.engine.phase = .xfer) → t.engine.res ≠ .none) ∧
  (∀ s t : State, step s = .next t → s.engine.phase = .xfer → t.engine.phase ≠ .xfer →
    s.inbox.head? ≠ some .reset → t.engine.res ≠ .none)

/-- 70_reset_and_hazards.md R252: no step changes the configuration, block reset included, and the converter and
decoder ports answer after block reset what they answer before it. -/
def Obligations.ConfigurationSurvivesReset : Prop :=
  (∀ s t : State, step s = .next t → t.cfg = s.cfg) ∧
  (∀ (i : Instr) (s t u : State), ¬ IsCommand i → exec i s = .next t → exec i (blockReset s) = .next u →
    u.convOut = t.convOut ∧ u.decOut = t.decOut)

/-- 70_reset_and_hazards.md R253: block reset sends no byte; RESET_DEVICE, run to its end, leaves the engine as
every completed frame does. -/
def Obligations.BlockAndChipResetSeparate : Prop :=
  (∀ s t : State, step s = .next t → s.inbox.head? = some .reset → t.wire = s.wire ∧ t.answers = s.answers) ∧
  (∀ (s : State) (r : Byte) (rest : List HostEvent) (more : List (Option Byte)),
    configOk s.cfg = true → s.engine.phase = .idle →
    s.inbox = .request (.command { op := .resetDevice }) :: .tick :: rest → s.answers = some r :: more →
    Host.Core.run core 2 s = .next { s with
      inbox := rest, answers := more, wire := s.wire ++ [⟨0xC0, some r⟩],
      engine := { phase := .idle, frame := [], ncmd := 0, idx := 0, rx := [], resp := .none, tag := none, res := .done ⟨.reset, .resetDevice⟩ } })

/-- 10_state.md R32: what a well-formed configuration is, that the step refuses any other, and that both
tables of the spec are well formed. -/
def Obligations.MalformedConfigurationRefused : Prop :=
  (∀ cfg : Config, configOk cfg = true ↔
    (∀ d ∈ cfg.regTable, d.addr ≤ 31 ∧ 1 ≤ d.width ∧ d.width ≤ 22) ∧
    (cfg.regTable.map (fun d => d.addr)).Nodup) ∧
  (∀ s : State, configOk s.cfg = false → step s = .refused .malformedConfig) ∧
  configOk defaultConfig = true ∧ configOk { defaultConfig with regTable := l6470Table } = true

/-! ### The step -/

/-- A step runs the decoded instruction: the request at the head of the inbox is decoded and executed at once,
on the state without it (30_encoding.md R90 to R92, 60_exceptions.md R242; log 1). -/
def Obligations.StepRunsDecodedRequest : Prop :=
  ∀ (s : State) (p : PortRequest) (i : Instr) (rest : List HostEvent), configOk s.cfg = true →
    s.inbox = .request p :: rest → decodePort p = i → step s = exec i { s with inbox := rest }

/-- Where the host does nothing, the engine steps in XFER and stays as it is in IDLE and DESYNC
(60_exceptions.md R232, R236; log 1). -/
def Obligations.EngineMovesWhenHostWaits : Prop :=
  ∀ s : State, configOk s.cfg = true →
    (s.inbox = [] → s.engine.phase = .xfer → step s = engineStep s) ∧
    (s.inbox = [] → s.engine.phase ≠ .xfer → step s = .next s) ∧
    (∀ rest, s.inbox = .tick :: rest → s.engine.phase = .xfer → step s = engineStep { s with inbox := rest }) ∧
    (∀ rest, s.inbox = .tick :: rest → s.engine.phase ≠ .xfer → step s = .next { s with inbox := rest })

/-- 30_encoding.md R90, R91, R92: what each converter selector (by its 4 bits), each decoder selector and each
command record spells: a kind reads only the fields its rule names, whatever the others hold. The bits 7 and 15
are no selector: refused, UNASSIGNED; every selector has its bits. -/
def Obligations.PortSelectorsSpellOperations : Prop :=
  (∀ (x : Double) (r : Nat),
    let asks : BitVec 4 → Except SelectorRefusal Instr :=
      fun csel => (selectorOf csel).map (fun c => decodePort (.converter c x r))
    asks 0 = .ok (.accToReg x) ∧ asks 8 = .ok (.regToAcc r) ∧
    asks 1 = .ok (.decToReg x) ∧ asks 9 = .ok (.regToDec r) ∧
    asks 2 = .ok (.maxSpeedToReg x) ∧ asks 10 = .ok (.regToMaxSpeed r) ∧
    asks 3 = .ok (.minSpeedToReg x) ∧ asks 11 = .ok (.regToMinSpeed r) ∧
    asks 4 = .ok (.fsSpdToReg x) ∧ asks 12 = .ok (.regToFsSpd r) ∧
    asks 5 = .ok (.intSpdToReg x) ∧ asks 13 = .ok (.regToIntSpd r) ∧
    asks 6 = .ok (.runSpeedToReg x) ∧ asks 14 = .ok (.regToRunSpeed r) ∧
    asks 7 = .error (.unassigned 7) ∧ asks 15 = .error (.unassigned 15)) ∧
  (∀ c : Selector, selectorOf (selectorBits c) = .ok c) ∧
  (∀ (a : Nat) (b : Byte) (bs : List Byte) (path : StatusPath),
    decodePort (.decoder 0 a b bs path) = .decodeParam a bs ∧
    decodePort (.decoder 1 a b bs path) = .decodeStatus bs path ∧
    decodePort (.decoder 2 a b bs path) = .decodeCommand b ∧
    decodePort (.decoder 3 a b bs path) = .decodeFrame bs) ∧
  (∀ reg value dir act enable : Nat,
    let record : Kind → Instr := fun k => decodePort (.command ⟨k, reg, value, dir, act, enable⟩)
    record .setParam = .setParam reg value ∧ record .getParam = .getParam reg ∧
    record .setLspdOpt = .setLspdOpt enable ∧ record .run = .run dir value ∧ record .move = .move dir value ∧
    record .goto = .goto value ∧ record .gotoDir = .gotoDir dir value ∧ record .goUntil = .goUntil act dir value ∧
    record .releaseSw = .releaseSw act dir ∧ record .goHome = .goHome ∧ record .goMark = .goMark ∧
    record .softStop = .softStop ∧ record .hardStop = .hardStop ∧ record .softHiz = .softHiz ∧
    record .hardHiz = .hardHiz ∧ record .resetPos = .resetPos ∧ record .resetDevice = .resetDevice ∧
    record .getStatus = .getStatus)

/-! ### Errors of the command port -/

/-- 60_exceptions.md R227: every command-port request during XFER is refused with E7 and changes nothing but
`res`. -/
def Obligations.BusyEngineRefusesRequests : Prop :=
  ∀ (i : Instr) (s : State), IsCommand i → s.engine.phase = .xfer →
    exec i s = .next (refusedWith .engineBusy s)

/-- 60_exceptions.md R233: a failed exchange ends the frame with E6 and the index, in DESYNC; there every
command-port request is refused with E8; only block reset leaves DESYNC. -/
def Obligations.TransportFailureDesynchronises : Prop :=
  (∀ (s : State) (b : Byte) (tag : Tag), s.engine.phase = .xfer → s.engine.frame[s.engine.idx]? = some b →
    s.engine.tag = some tag → nextAnswer s = none →
    engineStep s = .next { s with
      answers := s.answers.tail, wire := s.wire ++ [⟨b, none⟩],
      engine := { phase := .desync, frame := [], ncmd := 0, idx := 0, rx := [], resp := .none, tag := none, res := .err (.transportFail s.engine.idx) } }) ∧
  (∀ (i : Instr) (s : State), IsCommand i → s.engine.phase = .desync → exec i s = .next (refusedWith .desync s)) ∧
  (∀ s t : State, step s = .next t → s.engine.phase = .desync → s.inbox.head? ≠ some .reset →
    t.engine.phase = .desync ∧ t.wire = s.wire)

/-- 60_exceptions.md R222: an address of 32 or more, or with no descriptor, is refused with E1 by every request
and decoder that names it. -/
def Obligations.UnknownRegisterRefused : Prop :=
  ∀ (s : State) (a v : Nat) (bytes : List Byte), (a ≥ 32 ∨ ∀ d ∈ s.cfg.regTable, d.addr ≠ a) →
    exec (.decodeParam a bytes) s = .next { s with decOut := some (.err (.unknownRegister a)) } ∧
    (s.engine.phase = .idle →
      exec (.setParam a v) s = .next (refusedWith (.unknownRegister a) s) ∧
      exec (.getParam a) s = .next (refusedWith (.unknownRegister a) s) ∧
      (a = 0x08 → exec (.setLspdOpt 1) s = .next (refusedWith (.unknownRegister 0x08) s)))

/-- 41_config_commands.md R139, 60_exceptions.md R223: SET_PARAM of a read-only register is refused with E2; the
pure encoder still frames it; with SOURCE_TABLE these are addresses 0x04 and 0x19. -/
def Obligations.ReadOnlyRegisterNotWritten : Prop :=
  (∀ (s : State) (a v : Nat) (d : RegDesc), s.engine.phase = .idle → lookup s.cfg a = .ok d → d.access = .ro →
    exec (.setParam a v) s = .next (refusedWith (.readOnlyRegister a) s) ∧
    encodeSetParam s.cfg a v = .ok (BitVec.ofNat 8 a :: regBytes d.width (v % 2 ^ d.width))) ∧
  (∀ a : Nat, (∃ d, lookup defaultConfig a = .ok d ∧ d.access = .ro) ↔ a = 0x04 ∨ a = 0x19)

/-- 60_exceptions.md R224: an undefined direction or action code, and any enable but 1, is refused with E3 and
that value. -/
def Obligations.UndefinedCodesRefused : Prop :=
  ∀ (s : State) (c d v : Nat), s.engine.phase = .idle →
    (d > 1 →
      exec (.run d v) s = .next (refusedWith (.badEnum d) s) ∧
      exec (.move d v) s = .next (refusedWith (.badEnum d) s) ∧
      exec (.gotoDir d v) s = .next (refusedWith (.badEnum d) s)) ∧
    (c > 1 →
      exec (.goUntil c d v) s = .next (refusedWith (.badEnum c) s) ∧
      exec (.releaseSw c d) s = .next (refusedWith (.badEnum c) s)) ∧
    (c ≤ 1 → d > 1 →
      exec (.goUntil c d v) s = .next (refusedWith (.badEnum d) s) ∧
      exec (.releaseSw c d) s = .next (refusedWith (.badEnum d) s)) ∧
    (v ≠ 1 → admitted s.cfg 0x08 = true → exec (.setLspdOpt v) s = .next (refusedWith (.badEnum v) s))

/-- 60_exceptions.md R225: a motion argument that does not fit its payload width is refused with E4 and that
value: 20 bits for RUN and GO_UNTIL, 22 bits for MOVE, GOTO and GOTO_DIR. -/
def Obligations.WideMotionArgumentsRefused : Prop :=
  ∀ (s : State) (c d v : Nat), s.engine.phase = .idle → c ≤ 1 → d ≤ 1 →
    (v ≥ 0x100000 →
      exec (.run d v) s = .next (refusedWith (.argRange v) s) ∧
      exec (.goUntil c d v) s = .next (refusedWith (.argRange v) s)) ∧
    (v ≥ 0x400000 →
      exec (.move d v) s = .next (refusedWith (.argRange v) s) ∧
      exec (.goto v) s = .next (refusedWith (.argRange v) s) ∧
      exec (.gotoDir d v) s = .next (refusedWith (.argRange v) s))

/-- 60_exceptions.md R229, where several errors apply: E8, then E7, before every operand check; E1 before E2 by the
lookup; E3 for the action before the direction, and both before E4; of the decoders E1 before E5, and E9 before E5
before E4. Where the enable is not 1 and the table lacks MIN_SPEED, SET_LSPD_OPT reports E1 by this order (log 11:
R134's pseudocode has the checks the other way). -/
def Obligations.FirstApplicableErrorReported : Prop :=
  (∀ (i : Instr) (s : State), IsCommand i → i.wellFormed s.cfg = false →
    (s.engine.phase = .desync → exec i s = .next (refusedWith .desync s)) ∧
    (s.engine.phase = .xfer → exec i s = .next (refusedWith .engineBusy s))) ∧
  (∀ (s : State) (c d v : Nat), s.engine.phase = .idle →
    (c > 1 → d > 1 → v ≥ 2 ^ 20 → exec (.goUntil c d v) s = .next (refusedWith (.badEnum c) s)) ∧
    (c ≤ 1 → d > 1 → v ≥ 2 ^ 20 → exec (.goUntil c d v) s = .next (refusedWith (.badEnum d) s)) ∧
    (d > 1 → v ≥ 2 ^ 22 → exec (.gotoDir d v) s = .next (refusedWith (.badEnum d) s)) ∧
    (v ≠ 1 → admitted s.cfg 0x08 = false → exec (.setLspdOpt v) s = .next (refusedWith (.unknownRegister 0x08) s))) ∧
  (∀ (cfg : Config) (a : Nat) (bytes : List Byte), admitted cfg a = false →
    decodeParamResponse cfg a bytes = .error (.unknownRegister a)) ∧
  (∀ (cfg : Config) (b : Byte) (rest : List Byte), opFields b = none →
    decodeFrame cfg (b :: rest) = .error (.unknownCommand b)) ∧
  (∀ (cfg : Config) (b : Byte) (c : Cmd) (rest : List Byte), decodeCommand cfg b = .ok c →
    rest.length + 1 ≠ c.ncmd + c.nresp → decodeFrame cfg (b :: rest) = .error (.responseLength (rest.length + 1)))

/-- 60_exceptions.md R230: a command-port request either is accepted in IDLE or is refused with one of E1, E2, E3,
E4, E7, E8, and then only `res` differs from the state before it. -/
def Obligations.RefusalsArePrecise : Prop :=
  ∀ (i : Instr) (s t : State), IsCommand i → exec i s = .next t →
    (s.engine.phase = .idle ∧ t.engine.phase = .xfer ∧ i.wellFormed s.cfg = true) ∨
    (∃ e, t = refusedWith e s ∧ (∀ n, e ≠ .responseLength n) ∧ (∀ n, e ≠ .transportFail n) ∧ (∀ b, e ≠ .unknownCommand b))

/-! ### Frames: what an operation leaves unchanged -/

/-- The frame of every command-port operation (10_state.md R30; 60_exceptions.md R230, R231): nothing but the
engine record changes; a refusal changes `res` alone; an acceptance, in IDLE, leaves `res` and starts at index 0
with no response byte. -/
def Obligations.CommandsWriteOnlyEngine : Prop :=
  ∀ (i : Instr) (s t : State), IsCommand i → exec i s = .next t →
    t.cfg = s.cfg ∧ t.inbox = s.inbox ∧ t.answers = s.answers ∧ t.wire = s.wire ∧
    t.convOut = s.convOut ∧ t.decOut = s.decOut ∧
    ((∃ e, t.engine = { s.engine with res := .err e }) ∨
     (s.engine.phase = .idle ∧ t.engine.phase = .xfer ∧ t.engine.res = s.engine.res ∧ t.engine.idx = 0 ∧ t.engine.rx = []))

/-- 40_converter.md R124, 30_encoding.md R91: a converter call changes the converter port's output alone, a
decoder call the decoder port's output alone, and both always return. -/
def Obligations.PortCallsWriteOnlyTheirPort : Prop :=
  (∀ (i : Instr) (s : State), isConverter i = true → ∃ v, exec i s = .next { s with convOut := some v }) ∧
  (∀ (i : Instr) (s : State), isDecoder i = true → ∃ v, exec i s = .next { s with decOut := some v }) ∧
  (∀ i : Instr, IsCommand i ↔ isConverter i = false ∧ isDecoder i = false)

/-! ### The configuration family -/

/-- SET_PARAM (41_config_commands.md R131): of a writable register, the frame is `0x00 | a` and the value masked
to the register's width, most significant byte first. -/
def Obligations.SetParamFramesMaskedValue : Prop :=
  ∀ (s : State) (a v : Nat) (d : RegDesc), s.engine.phase = .idle → lookup s.cfg a = .ok d → d.access = .rw →
    exec (.setParam a v) s =
      .next (inFlight (BitVec.ofNat 8 a :: regBytes d.width (v % 2 ^ d.width)) (1 + nbytes d.width) .none
        ⟨.config, .setParam⟩ s)

/-- GET_PARAM (41_config_commands.md R132): of any admitted register, read-only ones included, the frame is
`0x20 | a` and one FILLER for each response byte. -/
def Obligations.GetParamFramesFillers : Prop :=
  ∀ (s : State) (a : Nat) (d : RegDesc), s.engine.phase = .idle → lookup s.cfg a = .ok d →
    exec (.getParam a) s =
      .next (inFlight (BitVec.ofNat 8 (32 + a) :: List.replicate (nbytes d.width) s.cfg.filler) 1 (.param a)
        ⟨.config, .getParam⟩ s)

/-- SET_LSPD_OPT (41_config_commands.md R134): with enable 1 the frame of SET_PARAM MIN_SPEED 0x1000, which is
`[0x08, 0x10, 0x00]` for the 13-bit register; any other enable is E3, a table without MIN_SPEED E1
(both at once: Obligations.FirstApplicableErrorReported, log 11). -/
def Obligations.SetLspdOptFrames : Prop :=
  ∀ (s : State) (e : Nat), s.engine.phase = .idle →
    (∀ d, e = 1 → lookup s.cfg 0x08 = .ok d →
      exec (.setLspdOpt e) s =
        .next (inFlight (0x08 :: regBytes d.width (0x1000 % 2 ^ d.width)) (1 + nbytes d.width) .none
          ⟨.config, .setParam⟩ s)) ∧
    (∀ d, e = 1 → lookup s.cfg 0x08 = .ok d → d.width = 13 →
      exec (.setLspdOpt e) s = .next (inFlight [0x08, 0x10, 0x00] 3 .none ⟨.config, .setParam⟩ s)) ∧
    (e ≠ 1 → admitted s.cfg 0x08 = true → exec (.setLspdOpt e) s = .next (refusedWith (.badEnum e) s)) ∧
    (e = 1 → (∀ d ∈ s.cfg.regTable, d.addr ≠ 0x08) →
      exec (.setLspdOpt e) s = .next (refusedWith (.unknownRegister 0x08) s))

/-! ### The motion family -/

/-- RUN (42_motion_commands.md R151). -/
def Obligations.RunFrames : Prop :=
  ∀ (s : State) (d v : Nat), s.engine.phase = .idle →
    (d ≤ 1 → v < 0x100000 →
      exec (.run d v) s =
        .next (inFlight ((if d = 1 then 0x51 else 0x50) :: bytes3 v) 4 .none ⟨.motion, .run⟩ s)) ∧
    (d > 1 → exec (.run d v) s = .next (refusedWith (.badEnum d) s)) ∧
    (d ≤ 1 → v ≥ 0x100000 → exec (.run d v) s = .next (refusedWith (.argRange v) s))

/-- MOVE (42_motion_commands.md R152). -/
def Obligations.MoveFrames : Prop :=
  ∀ (s : State) (d n : Nat), s.engine.phase = .idle →
    (d ≤ 1 → n < 0x400000 →
      exec (.move d n) s =
        .next (inFlight ((if d = 1 then 0x41 else 0x40) :: bytes3 n) 4 .none ⟨.motion, .move⟩ s)) ∧
    (d > 1 → exec (.move d n) s = .next (refusedWith (.badEnum d) s)) ∧
    (d ≤ 1 → n ≥ 0x400000 → exec (.move d n) s = .next (refusedWith (.argRange n) s))

/-- GOTO (42_motion_commands.md R153). -/
def Obligations.GotoFrames : Prop :=
  ∀ (s : State) (p : Nat), s.engine.phase = .idle →
    (p < 0x400000 → exec (.goto p) s = .next (inFlight (0x60 :: bytes3 p) 4 .none ⟨.motion, .goto⟩ s)) ∧
    (p ≥ 0x400000 → exec (.goto p) s = .next (refusedWith (.argRange p) s)) ∧
    (∀ reg dir act enable : Nat, decodePort (.command ⟨.goto, reg, p, dir, act, enable⟩) = .goto p)

/-- GOTO_DIR (42_motion_commands.md R154). -/
def Obligations.GotoDirFrames : Prop :=
  ∀ (s : State) (d p : Nat), s.engine.phase = .idle →
    (d ≤ 1 → p < 0x400000 →
      exec (.gotoDir d p) s =
        .next (inFlight ((if d = 1 then 0x69 else 0x68) :: bytes3 p) 4 .none ⟨.motion, .gotoDir⟩ s)) ∧
    (d > 1 → exec (.gotoDir d p) s = .next (refusedWith (.badEnum d) s)) ∧
    (d ≤ 1 → p ≥ 0x400000 → exec (.gotoDir d p) s = .next (refusedWith (.argRange p) s))

/-- GO_UNTIL (42_motion_commands.md R155). -/
def Obligations.GoUntilFrames : Prop :=
  ∀ (s : State) (c d v : Nat), s.engine.phase = .idle →
    (c ≤ 1 → d ≤ 1 → v < 0x100000 →
      exec (.goUntil c d v) s =
        .next (inFlight ((if c = 1 then (if d = 1 then 0x8B else 0x8A) else (if d = 1 then 0x83 else 0x82)) :: bytes3 v)
          4 .none ⟨.motion, .goUntil⟩ s)) ∧
    (c > 1 → exec (.goUntil c d v) s = .next (refusedWith (.badEnum c) s)) ∧
    (c ≤ 1 → d > 1 → exec (.goUntil c d v) s = .next (refusedWith (.badEnum d) s)) ∧
    (c ≤ 1 → d ≤ 1 → v ≥ 0x100000 → exec (.goUntil c d v) s = .next (refusedWith (.argRange v) s))

/-- RELEASE_SW (42_motion_commands.md R156). -/
def Obligations.ReleaseSwFrames : Prop :=
  ∀ (s : State) (c d : Nat), s.engine.phase = .idle →
    (c ≤ 1 → d ≤ 1 →
      exec (.releaseSw c d) s =
        .next (inFlight [if c = 1 then (if d = 1 then 0x9B else 0x9A) else (if d = 1 then 0x93 else 0x92)]
          1 .none ⟨.motion, .releaseSw⟩ s)) ∧
    (c > 1 → exec (.releaseSw c d) s = .next (refusedWith (.badEnum c) s)) ∧
    (c ≤ 1 → d > 1 → exec (.releaseSw c d) s = .next (refusedWith (.badEnum d) s))

/-! ### Commands of one byte, and GET_STATUS -/

/-- GO_HOME, GO_MARK (42_motion_commands.md R157, R158), the stops (43_stop_reset_status.md R180 to R183) and
the resets (R184, R185): one opcode byte, no response, and the tag of the kind. -/
def Obligations.OneByteCommandsFrame : Prop :=
  ∀ s : State, s.engine.phase = .idle →
    exec .goHome s = .next (inFlight [0x70] 1 .none ⟨.motion, .goHome⟩ s) ∧
    exec .goMark s = .next (inFlight [0x78] 1 .none ⟨.motion, .goMark⟩ s) ∧
    exec .softStop s = .next (inFlight [0xB0] 1 .none ⟨.stop, .softStop⟩ s) ∧
    exec .hardStop s = .next (inFlight [0xB8] 1 .none ⟨.stop, .hardStop⟩ s) ∧
    exec .softHiz s = .next (inFlight [0xA0] 1 .none ⟨.stop, .softHiz⟩ s) ∧
    exec .hardHiz s = .next (inFlight [0xA8] 1 .none ⟨.stop, .hardHiz⟩ s) ∧
    exec .resetPos s = .next (inFlight [0xD8] 1 .none ⟨.reset, .resetPos⟩ s) ∧
    exec .resetDevice s = .next (inFlight [0xC0] 1 .none ⟨.reset, .resetDevice⟩ s)

/-- GET_STATUS (43_stop_reset_status.md R186): the frame, and the status word through the clearing path when it
completes. -/
def Obligations.GetStatusFrames : Prop :=
  (∀ s : State, s.engine.phase = .idle →
    exec .getStatus s =
      .next (inFlight [0xD0, s.cfg.filler, s.cfg.filler] 1 .status ⟨.status, .getStatus⟩ s)) ∧
  (∀ (s : State) (r b0 b1 : Byte) (more : List (Option Byte)), configOk s.cfg = true → s.engine.phase = .idle →
    s.inbox = [.request (.command { op := .getStatus })] → s.answers = some r :: some b0 :: some b1 :: more →
    Host.Core.run core 4 s = .next { s with
      inbox := [], answers := more,
      wire := s.wire ++ [⟨0xD0, some r⟩, ⟨s.cfg.filler, some b0⟩, ⟨s.cfg.filler, some b1⟩],
      engine := { phase := .idle, frame := [], ncmd := 0, idx := 0, rx := [], resp := .none, tag := none, res := .status ⟨.status, .getStatus⟩ .clearing (b0.toNat * 256 + b1.toNat) } })

/-! ### The frame engine -/

/-- 60_exceptions.md R232: one engine step makes one exchange with the byte at `idx`; the byte that comes back is
kept in the response part and discarded in the command part; `idx` advances by 1; at the end of the frame `res`
gets DONE, VALUE or STATUS by `resp`, and the record is emptied; FAIL goes to transport_failure (R233). -/
def Obligations.EngineExchangesOneByte : Prop :=
  ∀ (s : State) (b : Byte) (tag : Tag), s.engine.phase = .xfer → s.engine.frame[s.engine.idx]? = some b →
    s.engine.tag = some tag →
    (∀ r : Byte, nextAnswer s = some r →
      let rx' := if s.engine.idx < s.engine.ncmd then s.engine.rx else s.engine.rx ++ [r]
      let ended : Result → State := fun res => { s with
        answers := s.answers.tail, wire := s.wire ++ [⟨b, some r⟩],
        engine := { phase := .idle, frame := [], ncmd := 0, idx := 0, rx := [], resp := .none, tag := none, res := res } }
      (s.engine.idx + 1 ≠ s.engine.frame.length →
        engineStep s = .next { s with
          answers := s.answers.tail, wire := s.wire ++ [⟨b, some r⟩],
          engine := { s.engine with idx := s.engine.idx + 1, rx := rx' } }) ∧
      (s.engine.idx + 1 = s.engine.frame.length → s.engine.resp = .none →
        engineStep s = .next (ended (.done tag))) ∧
      (s.engine.idx + 1 = s.engine.frame.length → s.engine.resp = .status →
        engineStep s = .next (ended (.status tag .clearing (unbe rx')))) ∧
      (∀ a d, s.engine.idx + 1 = s.engine.frame.length → s.engine.resp = .param a → lookup s.cfg a = .ok d →
        rx'.length = nbytes d.width → a = 0x19 →
        engineStep s = .next (ended (.status tag .nonclearing (unbe rx' % 2 ^ d.width)))) ∧
      (∀ a d, s.engine.idx + 1 = s.engine.frame.length → s.engine.resp = .param a → lookup s.cfg a = .ok d →
        rx'.length = nbytes d.width → a ≠ 0x19 →
        engineStep s = .next (ended (.value tag a (unbe rx' % 2 ^ d.width))))) ∧
    (nextAnswer s = none →
      engineStep s = .next { s with
        answers := s.answers.tail, wire := s.wire ++ [⟨b, none⟩],
        engine := { phase := .desync, frame := [], ncmd := 0, idx := 0, rx := [], resp := .none, tag := none, res := .err (.transportFail s.engine.idx) } })

/-- 10_state.md R22: `idx` is 0 when a frame is accepted, advances by exactly 1 on each successful exchange, and
otherwise stays; the frame completes when it reaches the frame's length. -/
def Obligations.IndexAdvancesByOne : Prop :=
  ∀ s t : State, step s = .next t →
    (s.engine.phase = .idle → t.engine.phase = .xfer → t.engine.idx = 0) ∧
    (s.engine.phase = .xfer → t.engine.phase = .xfer →
      (t.engine.idx = s.engine.idx ∧ t.wire = s.wire) ∨
      (t.engine.idx = s.engine.idx + 1 ∧ ∃ b r, t.wire = s.wire ++ [⟨b, some r⟩])) ∧
    (s.engine.phase = .xfer → t.engine.phase = .idle → s.inbox.head? ≠ some .reset →
      s.engine.idx + 1 = s.engine.frame.length ∧ ∃ b r, t.wire = s.wire ++ [⟨b, some r⟩])

/-- 20_memory.md R59, R60, R64; 60_exceptions.md R236: a step makes at most one exchange, in XFER, of the byte at
`idx`; and only a command-port request starts a frame. -/
def Obligations.WireGrowsOneTransaction : Prop :=
  ∀ s t : State, step s = .next t →
    ((t.wire = s.wire ∧ t.answers = s.answers) ∨
     (s.engine.phase = .xfer ∧ t.answers = s.answers.tail ∧
      ∃ b, s.engine.frame[s.engine.idx]? = some b ∧ t.wire = s.wire ++ [⟨b, nextAnswer s⟩])) ∧
    (s.engine.phase ≠ .xfer → t.engine.phase = .xfer → ∃ q, s.inbox.head? = some (.request (.command q)))

/-- 43_stop_reset_status.md R188, 41_config_commands.md R133: a frame that completes with a status result (the same
as before or not) read it either by GET_STATUS with the clearing path or by GET_PARAM with the nonclearing one;
and a status result that was not there before comes from no step but such a completion. -/
def Obligations.StatusPathsStayDistinct : Prop :=
  ∀ (s t : State) (tag : Tag) (path : StatusPath) (w : Nat), Inv s → step s = .next t →
    t.engine.res = .status tag path w →
    (s.engine.phase = .xfer → t.engine.phase = .idle → s.inbox.head? ≠ some .reset →
      (path = .clearing ∧ tag = ⟨.status, .getStatus⟩ ∧ s.engine.resp = .status) ∨
      (path = .nonclearing ∧ tag = ⟨.config, .getParam⟩ ∧ s.engine.resp = .param 0x19)) ∧
    (t.engine.res ≠ s.engine.res →
      s.engine.phase = .xfer ∧ t.engine.phase = .idle ∧ s.inbox.head? ≠ some .reset)

/-- 43_stop_reset_status.md R189, 60_exceptions.md R235: the bytes the chip answers never change which phase or
frame the engine is in, and never make an error. -/
def Obligations.ChipDataNeverChangesPhase : Prop :=
  ∀ (s : State) (b c : Byte) (more : List (Option Byte)), Inv s → s.engine.phase = .xfer → s.inbox = [] →
    ∃ t u, step { s with answers := some b :: more } = .next t ∧ step { s with answers := some c :: more } = .next u ∧
      t.engine.phase = u.engine.phase ∧ t.engine.phase ≠ .desync ∧ t.engine.frame = u.engine.frame ∧
      t.engine.idx = u.engine.idx ∧ t.engine.resp = u.engine.resp ∧ t.engine.tag = u.engine.tag ∧
      (t.engine.phase = .idle → ∀ e, t.engine.res ≠ .err e)

/-- 10_state.md R42: no operation reads `res`: two states that differ in `res` alone step alike, and either the
same new result is written in both or both keep theirs. -/
def Obligations.ResultNeverRead : Prop :=
  ∀ (s : State) (r : Result),
    match step s, step (withRes r s) with
    | .next t, .next u => u = t ∨ (u = withRes r t ∧ t.engine.res = s.engine.res)
    | .fault f, .fault g => f = g
    | .refused f, .refused g => f = g
    | _, _ => False

/-! ### The invariant -/

/-- The invariant `Inv` (10_state.md R23 to R28, R32; 30_encoding.md R71, R86) is kept by every step. -/
def Obligations.EngineInvariantKept : Prop :=
  ∀ s t : State, Inv s → step s = .next t → Inv t

/-- The invariant holds after reset (70_reset_and_hazards.md R250). -/
def Obligations.EngineInvariantAtReset : Prop := Inv State.reset

/-- 10_state.md R25, R26: what the invariant says of a frame in flight: the ranges of `idx`, `ncmd` and the
length, the response bytes counted, the opcode byte first and FILLER bytes last, and never both a payload and
fillers. -/
def Obligations.FlightRecordShape : Prop :=
  ∀ s : State, Inv s → s.engine.phase = .xfer →
    s.engine.idx ≤ s.engine.frame.length ∧ s.engine.frame.length ≤ 4 ∧
    1 ≤ s.engine.ncmd ∧ s.engine.ncmd ≤ s.engine.frame.length ∧
    s.engine.rx.length = max 0 (s.engine.idx - s.engine.ncmd) ∧
    (s.engine.ncmd = 1 ∨ s.engine.ncmd = s.engine.frame.length) ∧
    (∀ b ∈ s.engine.frame.drop s.engine.ncmd, b = s.cfg.filler) ∧
    (∃ op rest, s.engine.frame = op :: rest ∧ frameLength s.cfg op = .ok s.engine.frame.length)

/-- 60_exceptions.md R220: nothing in the block is fatal: from a state that meets the invariant every step goes on,
with no fault and no refusal. -/
def Obligations.NoRunFaults : Prop := ∀ s : State, Inv s → ∃ t, step s = .next t

/-! ### Whole frames -/

/-- 20_memory.md R59, R60, R64; 60_exceptions.md R231, R232; 70_reset_and_hazards.md R264: a well-formed command
requested in IDLE, whose transport answers every byte, completes after one exchange for each byte of its frame,
in order, with its result; nothing else changes. R264 counts one engine step for each byte; that taking the
request is a step of its own, the first of the `1 + f.length`, is log 1's choice. -/
def Obligations.AcceptedFrameRunsToCompletion : Prop :=
  ∀ (s : State) (i : Instr) (f bytes : List Byte) (rest : List HostEvent) (more : List (Option Byte)),
    configOk s.cfg = true → s.engine.phase = .idle → encode s.cfg i = some f → bytes.length = f.length →
    s.inbox = .request (encodePort i) :: (ticks f.length ++ rest) → s.answers = bytes.map some ++ more →
    ∃ r, finalResult s.cfg i bytes = some r ∧
      Host.Core.run core (1 + f.length) s = .next { s with
        inbox := rest, answers := more, wire := s.wire ++ transactions f bytes,
        engine := { phase := .idle, frame := [], ncmd := 0, idx := 0, rx := [], resp := .none, tag := none, res := r } }

/-- 44_decoders.md R209: the frame of every accepted request decodes to the request's canonical form, its first
byte tells its length, and two accepted requests with one frame have one canonical form. (SET_LSPD_OPT's
canonical value 0x1000 needs MIN_SPEED to have its 13 bits, as in both tables of the spec.) -/
def Obligations.FrameDecodesToCanonicalRequest : Prop :=
  ∀ (s t : State) (q : Request), configOk s.cfg = true → s.engine.phase = .idle →
    (q.op = .setLspdOpt → regWidth s.cfg 0x08 = 13) → exec (decodeRequest q) s = .next t →
    t.engine.phase = .xfer →
    decodeFrame s.cfg t.engine.frame = .ok (canon s.cfg q) ∧
    (∃ op rest, t.engine.frame = op :: rest ∧ frameLength s.cfg op = .ok t.engine.frame.length) ∧
    encode s.cfg (decodeRequest q) = some t.engine.frame ∧
    (∀ (u : State) (q' : Request), (q'.op = .setLspdOpt → regWidth s.cfg 0x08 = 13) →
      exec (decodeRequest q') s = .next u → u.engine.phase = .xfer → u.engine.frame = t.engine.frame →
      canon s.cfg q' = canon s.cfg q)

/-- 41_config_commands.md R136: the response decoder recovers the masked value from the payload of the encoder,
for every register with a descriptor, read-only ones included, and every value. -/
def Obligations.ResponseRoundTrip : Prop :=
  ∀ (cfg : Config) (a v : Nat) (d : RegDesc), configOk cfg = true → lookup cfg a = .ok d →
    ∃ f, encodeSetParam cfg a v = .ok f ∧ decodeParamResponse cfg a (f.drop 1) = .ok (v % 2 ^ d.width)

/-- 44_decoders.md R207: frameLength is `ncmd + nresp` of the decoded command, 1 to 4, or E9. -/
def Obligations.FrameLengthFromFirstByte : Prop :=
  ∀ (cfg : Config) (b : Byte),
    (∃ c n, decodeCommand cfg b = .ok c ∧ frameLength cfg b = .ok n ∧ n = c.ncmd + c.nresp ∧ 1 ≤ n ∧ n ≤ 4) ∨
    (decodeCommand cfg b = .error (.unknownCommand b) ∧ frameLength cfg b = .error (.unknownCommand b))

/-- 30_encoding.md R83, R84, 44_decoders.md R206: the mask and match values of spec/opcode_table.json: each byte
matches at most one row, the decoder reads that row's kind, and with SOURCE_TABLE 46 bytes are commands and 210
are E9. -/
def Obligations.OpcodeTableRowsDisjoint : Prop :=
  let rows : List (Nat × Nat × Kind) :=
    [(0xE0, 0x00, .setParam), (0xE0, 0x20, .getParam), (0xFE, 0x40, .move), (0xFE, 0x50, .run),
     (0xFF, 0x60, .goto), (0xFE, 0x68, .gotoDir), (0xFF, 0x70, .goHome), (0xFF, 0x78, .goMark),
     (0xF6, 0x82, .goUntil), (0xF6, 0x92, .releaseSw), (0xFF, 0xA0, .softHiz), (0xFF, 0xA8, .hardHiz),
     (0xFF, 0xB0, .softStop), (0xFF, 0xB8, .hardStop), (0xFF, 0xC0, .resetDevice), (0xFF, 0xD0, .getStatus),
     (0xFF, 0xD8, .resetPos)]
  (∀ b < 256, (rows.filter (fun r => b &&& r.1 == r.2.1)).length ≤ 1 ∧
    (opFields (BitVec.ofNat 8 b)).map (fun f => f.kind) = (rows.find? (fun r => b &&& r.1 == r.2.1)).map (fun r => r.2.2)) ∧
  ((List.range 256).filter (fun b => (decodeCommand defaultConfig (BitVec.ofNat 8 b)).isOk)).length = 46 ∧
  ((List.range 256).filter (fun b => decodeCommand defaultConfig (BitVec.ofNat 8 b) == .error (.unknownCommand (BitVec.ofNat 8 b)))).length = 210

/-- 44_decoders.md R202 to R205: the command each assigned byte decodes to, with its fields and lengths; a REG
form that is not admitted is E9. -/
def Obligations.CommandBytesDecode : Prop :=
  ∀ cfg : Config,
    (∀ a d, lookup cfg a = .ok d →
      decodeCommand cfg (BitVec.ofNat 8 a) = .ok ⟨.setParam, some a, none, none, 1 + nbytes d.width, 0⟩ ∧
      decodeCommand cfg (BitVec.ofNat 8 (32 + a)) = .ok ⟨.getParam, some a, none, none, 1, nbytes d.width⟩) ∧
    (∀ a, a ≤ 31 → admitted cfg a = false →
      decodeCommand cfg (BitVec.ofNat 8 a) = .error (.unknownCommand (BitVec.ofNat 8 a)) ∧
      decodeCommand cfg (BitVec.ofNat 8 (32 + a)) = .error (.unknownCommand (BitVec.ofNat 8 (32 + a)))) ∧
    (∀ d, d ≤ 1 →
      decodeCommand cfg (BitVec.ofNat 8 (0x40 + d)) = .ok ⟨.move, none, some d, none, 4, 0⟩ ∧
      decodeCommand cfg (BitVec.ofNat 8 (0x50 + d)) = .ok ⟨.run, none, some d, none, 4, 0⟩ ∧
      decodeCommand cfg (BitVec.ofNat 8 (0x68 + d)) = .ok ⟨.gotoDir, none, some d, none, 4, 0⟩) ∧
    (∀ c d, c ≤ 1 → d ≤ 1 →
      decodeCommand cfg (BitVec.ofNat 8 (0x82 + 8 * c + d)) = .ok ⟨.goUntil, none, some d, some c, 4, 0⟩ ∧
      decodeCommand cfg (BitVec.ofNat 8 (0x92 + 8 * c + d)) = .ok ⟨.releaseSw, none, some d, some c, 1, 0⟩) ∧
    decodeCommand cfg 0x60 = .ok ⟨.goto, none, none, none, 4, 0⟩ ∧
    decodeCommand cfg 0x70 = .ok ⟨.goHome, none, none, none, 1, 0⟩ ∧
    decodeCommand cfg 0x78 = .ok ⟨.goMark, none, none, none, 1, 0⟩ ∧
    decodeCommand cfg 0xA0 = .ok ⟨.softHiz, none, none, none, 1, 0⟩ ∧
    decodeCommand cfg 0xA8 = .ok ⟨.hardHiz, none, none, none, 1, 0⟩ ∧
    decodeCommand cfg 0xB0 = .ok ⟨.softStop, none, none, none, 1, 0⟩ ∧
    decodeCommand cfg 0xB8 = .ok ⟨.hardStop, none, none, none, 1, 0⟩ ∧
    decodeCommand cfg 0xC0 = .ok ⟨.resetDevice, none, none, none, 1, 0⟩ ∧
    decodeCommand cfg 0xD0 = .ok ⟨.getStatus, none, none, none, 1, 2⟩ ∧
    decodeCommand cfg 0xD8 = .ok ⟨.resetPos, none, none, none, 1, 0⟩

/-! ### The decoder port -/

/-- decodeParamResponse (41_config_commands.md R135). -/
def Obligations.DecodeParamAnswers : Prop :=
  ∀ (s : State) (a : Nat) (bytes : List Byte),
    (∀ d, lookup s.cfg a = .ok d → bytes.length = nbytes d.width →
      exec (.decodeParam a bytes) s = .next { s with decOut := some (.param (unbe bytes % 2 ^ d.width)) }) ∧
    (∀ d, lookup s.cfg a = .ok d → bytes.length ≠ nbytes d.width →
      exec (.decodeParam a bytes) s = .next { s with decOut := some (.err (.responseLength bytes.length)) }) ∧
    (admitted s.cfg a = false →
      exec (.decodeParam a bytes) s = .next { s with decOut := some (.err (.unknownRegister a)) })

/-- decodeStatus under the default layout (43_stop_reset_status.md R187, 10_state.md R39). -/
def Obligations.DecodeStatusAnswers : Prop :=
  ∀ (s : State) (bytes : List Byte) (path : StatusPath),
    (∀ b0 b1 : Byte, bytes = [b0, b1] → s.cfg.statusLayout = defaultLayout →
      let w := b0.toNat * 256 + b1.toNat
      exec (.decodeStatus bytes path) s = .next { s with decOut := some (.status
        { path := path, word := w, hiz := w % 2, busy := w / 2 % 2, swF := w / 4 % 2, swEvn := w / 8 % 2,
          dir := w / 16 % 2,
          motStatus := if w / 32 % 4 = 0 then .stopped else if w / 32 % 4 = 1 then .accelerating
            else if w / 32 % 4 = 2 then .decelerating else .constantSpeed,
          notPerfCmd := w / 128 % 2, wrongCmd := w / 256 % 2, uvlo := w / 512 % 2, thWrn := w / 1024 % 2,
          thSd := w / 2048 % 2, ocd := w / 4096 % 2, stepLossA := w / 8192 % 2, stepLossB := w / 16384 % 2,
          sckMod := w / 32768 % 2 }) }) ∧
    (bytes.length ≠ 2 →
      exec (.decodeStatus bytes path) s = .next { s with decOut := some (.err (.responseLength bytes.length)) })

/-- decodeCommand and decodeFrame on their port (44_decoders.md R200, R208): the command or E9; the request, or
E5 for an empty frame or a wrong length, E9 for an unknown opcode, E4 for a motion payload too wide. -/
def Obligations.CommandDecodersAnswer : Prop :=
  ∀ s : State,
    (∀ b c, decodeCommand s.cfg b = .ok c →
      exec (.decodeCommand b) s = .next { s with decOut := some (.command c) }) ∧
    (∀ b, (∀ c, decodeCommand s.cfg b ≠ .ok c) →
      exec (.decodeCommand b) s = .next { s with decOut := some (.err (.unknownCommand b)) } ∧
      ∀ rest, exec (.decodeFrame (b :: rest)) s = .next { s with decOut := some (.err (.unknownCommand b)) }) ∧
    exec (.decodeFrame []) s = .next { s with decOut := some (.err (.responseLength 0)) } ∧
    (∀ b c rest, decodeCommand s.cfg b = .ok c → (b :: rest).length ≠ c.ncmd + c.nresp →
      exec (.decodeFrame (b :: rest)) s = .next { s with decOut := some (.err (.responseLength (b :: rest).length)) }) ∧
    (∀ b c rest w, decodeCommand s.cfg b = .ok c → (b :: rest).length = c.ncmd + c.nresp →
      c.kind.argWidth = some w → unbe rest ≥ 2 ^ w →
      exec (.decodeFrame (b :: rest)) s = .next { s with decOut := some (.err (.argRange (unbe rest))) }) ∧
    (∀ b c rest w, decodeCommand s.cfg b = .ok c → (b :: rest).length = c.ncmd + c.nresp →
      c.kind.argWidth = some w → unbe rest < 2 ^ w →
      exec (.decodeFrame (b :: rest)) s = .next { s with decOut := some (.request
        { op := c.kind, value := unbe rest, dir := c.d.getD 0, act := c.c.getD 0 }) }) ∧
    (∀ b c rest a, decodeCommand s.cfg b = .ok c → (b :: rest).length = c.ncmd + c.nresp →
      c.kind = .setParam → c.a = some a →
      exec (.decodeFrame (b :: rest)) s = .next { s with decOut := some (.request
        { op := .setParam, reg := a, value := unbe rest % 2 ^ regWidth s.cfg a }) }) ∧
    (∀ b c rest, decodeCommand s.cfg b = .ok c → (b :: rest).length = c.ncmd + c.nresp →
      c.kind.argWidth = none → c.kind ≠ .setParam →
      exec (.decodeFrame (b :: rest)) s = .next { s with decOut := some (.request
        { op := c.kind, reg := c.a.getD 0, dir := c.d.getD 0, act := c.c.getD 0 }) })

/-! ### The converter -/

/-- The forward converters (40_converter.md R105 to R111): each returns the forward scheme with its scale, offset
and width on the converter port; and what that scheme is (R100 to R103, 00_scope.md R11, R12), written out: `Q` is
the exact value of a finite operand from its fields (the binary64 layout is log 7), `q = Q * K - off`, and the
result is `floor(q + 1/2)` or `floor(q)` by ROUND_MODE, saturated at `2^w - 1`, and 0 for `q < 0`. -/
def Obligations.ForwardConvertersReturn : Prop :=
  (∀ (s : State) (x : Double),
    exec (.accToReg x) s = .next { s with convOut := some (.reg (conv s.cfg.roundMode x (137438 / 1000000) 0 12)) } ∧
    exec (.decToReg x) s = .next { s with convOut := some (.reg (conv s.cfg.roundMode x (137438 / 1000000) 0 12)) } ∧
    exec (.maxSpeedToReg x) s = .next { s with convOut := some (.reg (conv s.cfg.roundMode x (65536 / 1000000) 0 10)) } ∧
    exec (.minSpeedToReg x) s = .next { s with convOut := some (.reg (conv s.cfg.roundMode x (41943 / 10000) 0 12)) } ∧
    exec (.fsSpdToReg x) s = .next { s with convOut := some (.reg (conv s.cfg.roundMode x (65536 / 1000000) (1 / 2) 10)) } ∧
    exec (.intSpdToReg x) s = .next { s with convOut := some (.reg (conv s.cfg.roundMode x (41943 / 10000) 0 14)) } ∧
    exec (.runSpeedToReg x) s = .next { s with convOut := some (.reg (conv s.cfg.roundMode x (67106 / 1000) 0 20)) }) ∧
  (∀ (mode : RoundMode) (x : Double) (K off : Rat) (w : Nat),
    let negative : Bool := decide (x.toNat / 2 ^ 63 = 1)
    let e : Nat := x.toNat / 2 ^ 52 % 2 ^ 11
    let f : Nat := x.toNat % 2 ^ 52
    let magnitude : Rat :=
      if e = 0 then (f : Rat) * 2 ^ (-1074 : Int) else ((2 : Rat) ^ 52 + f) * 2 ^ ((e : Int) - 1075)
    let Q : Rat := if negative then -magnitude else magnitude
    let q : Rat := Q * K - off
    (e = 2047 → f ≠ 0 → conv mode x K off w = 0) ∧
    (e = 2047 → f = 0 → conv mode x K off w = if negative then 0 else 2 ^ w - 1) ∧
    (e ≠ 2047 → doubleValue x = .finite Q) ∧
    (e ≠ 2047 → q < 0 → conv mode x K off w = 0) ∧
    (e ≠ 2047 → 0 ≤ q → conv .nearestHalfAway x K off w = min ⌊q + 1 / 2⌋.toNat (2 ^ w - 1)) ∧
    (e ≠ 2047 → 0 ≤ q → conv .truncate x K off w = min ⌊q⌋.toNat (2 ^ w - 1))) ∧
  (∀ q : Rat,
    (0 ≤ q → roundRat .nearestHalfAway q = ⌊q + 1 / 2⌋ ∧ roundRat .truncate q = ⌊q⌋) ∧
    (q < 0 → roundRat .nearestHalfAway q = -⌊-q + 1 / 2⌋ ∧ roundRat .truncate q = -⌊-q⌋))

/-- The reverse converters (40_converter.md R115 to R122): `(r mod 2^w + off) / K`, exact. -/
def Obligations.ReverseConvertersReturn : Prop :=
  ∀ (s : State) (r : Nat),
    exec (.regToAcc r) s = .next { s with convOut := some (.phys (((r % 4096 : Nat) : Rat) / (137438 / 1000000))) } ∧
    exec (.regToDec r) s = .next { s with convOut := some (.phys (((r % 4096 : Nat) : Rat) / (137438 / 1000000))) } ∧
    exec (.regToMaxSpeed r) s = .next { s with convOut := some (.phys (((r % 1024 : Nat) : Rat) / (65536 / 1000000))) } ∧
    exec (.regToMinSpeed r) s = .next { s with convOut := some (.phys (((r % 4096 : Nat) : Rat) / (41943 / 10000))) } ∧
    exec (.regToFsSpd r) s = .next { s with convOut := some (.phys ((((r % 1024 : Nat) : Rat) + 1 / 2) / (65536 / 1000000))) } ∧
    exec (.regToIntSpd r) s = .next { s with convOut := some (.phys (((r % 16384 : Nat) : Rat) / (41943 / 10000))) } ∧
    exec (.regToRunSpeed r) s = .next { s with convOut := some (.phys (((r % 1048576 : Nat) : Rat) / (67106 / 1000))) }

/-- 40_converter.md R103: NaN and −∞ give 0, +∞ gives `max_w`, both zeros and every subnormal give 0, for every
forward converter under both rounding modes. Which bits are a zero or a subnormal is the binary64 layout the model
takes from the IEEE-754 standard (log 7, PRESUMED). -/
def Obligations.NonFiniteInputsDefined : Prop :=
  ∀ (mode : RoundMode) (K off : Rat) (w : Nat) (x : Double), (K, off, w) ∈ quantities →
    (doubleValue x = .nan → conv mode x K off w = 0) ∧
    (doubleValue x = .posInf → conv mode x K off w = 2 ^ w - 1) ∧
    (doubleValue x = .negInf → conv mode x K off w = 0) ∧
    (x = 0 ∨ x = 0x8000000000000000 → conv mode x K off w = 0) ∧
    (doubleExp x = 0 → conv mode x K off w = 0)

/-- 40_converter.md R104: a forward result lies in `[0, max_w]`; in particular MIN_SPEED's value never sets bit 12
(R108). -/
def Obligations.ForwardResultsFitWidth : Prop :=
  ∀ (i : Instr) (s t : State) (n : Nat), isConverter i = true → exec i s = .next t → t.convOut = some (.reg n) →
    (∀ x, i = .accToReg x → n ≤ 0xFFF) ∧ (∀ x, i = .decToReg x → n ≤ 0xFFF) ∧
    (∀ x, i = .maxSpeedToReg x → n ≤ 0x3FF) ∧ (∀ x, i = .minSpeedToReg x → n ≤ 0xFFF) ∧
    (∀ x, i = .fsSpdToReg x → n ≤ 0x3FF) ∧ (∀ x, i = .intSpdToReg x → n ≤ 0x3FFF) ∧
    (∀ x, i = .runSpeedToReg x → n ≤ 0xFFFFF)

/-- 40_converter.md R112: a forward converter gives `max_w` exactly where the rounded value reaches it, or for +∞;
so accelToReg and decToReg give the sentinel 0xFFF exactly there. -/
def Obligations.SentinelReachedExactly : Prop :=
  (∀ (mode : RoundMode) (K off : Rat) (w : Nat) (x : Double), (K, off, w) ∈ quantities →
    (conv mode x K off w = 2 ^ w - 1 ↔
      doubleValue x = .posInf ∨ ∃ q, doubleValue x = .finite q ∧ ((2 : Int) ^ w - 1) ≤ roundRat mode (q * K - off))) ∧
  (∀ (mode : RoundMode) (x : Double),
    (accelToReg mode x = 0xFFF ↔
      doubleValue x = .posInf ∨ ∃ q, doubleValue x = .finite q ∧ 0xFFF ≤ roundRat mode (q * (137438 / 1000000))) ∧
    decToReg mode x = accelToReg mode x)

/-- 40_converter.md R113: every forward converter is monotonically non-decreasing on the values that are no NaN,
under both rounding modes. -/
def Obligations.ForwardConvertersMonotone : Prop :=
  ∀ (mode : RoundMode) (K off : Rat) (w : Nat) (x y : Double), (K, off, w) ∈ quantities →
    doubleLe (doubleValue x) (doubleValue y) → conv mode x K off w ≤ conv mode y K off w

/-- 40_converter.md R114, with the saturation points of R105 to R111 under each rounding mode. -/
def Obligations.ForwardConvertersSaturate : Prop :=
  (∀ (mode : RoundMode) (K off : Rat) (w : Nat) (x : Double), (K, off, w) ∈ quantities →
    doubleLe (doubleValue x) (.finite 0) → conv mode x K off w = 0) ∧
  (∀ x : Double,
    (doubleLe (.finite (2047250000 / 68719)) (doubleValue x) → accelToReg .nearestHalfAway x = 0xFFF ∧ decToReg .nearestHalfAway x = 0xFFF) ∧
    (doubleLe (.finite (292500000 / 9817)) (doubleValue x) → accelToReg .truncate x = 0xFFF ∧ decToReg .truncate x = 0xFFF) ∧
    (doubleLe (.finite (31953125 / 2048)) (doubleValue x) → maxSpeedToReg .nearestHalfAway x = 0x3FF) ∧
    (doubleLe (.finite (15984375 / 1024)) (doubleValue x) → maxSpeedToReg .truncate x = 0x3FF) ∧
    (doubleLe (.finite (40945000 / 41943)) (doubleValue x) → minSpeedToReg .nearestHalfAway x = 0xFFF) ∧
    (doubleLe (.finite (13650000 / 13981)) (doubleValue x) → minSpeedToReg .truncate x = 0xFFF) ∧
    (doubleLe (.finite (15984375 / 1024)) (doubleValue x) → fullStepSpeedToReg .nearestHalfAway x = 0x3FF) ∧
    (doubleLe (.finite (31984375 / 2048)) (doubleValue x) → fullStepSpeedToReg .truncate x = 0x3FF) ∧
    (doubleLe (.finite (163825000 / 41943)) (doubleValue x) → intersectSpeedToReg .nearestHalfAway x = 0x3FFF) ∧
    (doubleLe (.finite (54610000 / 13981)) (doubleValue x) → intersectSpeedToReg .truncate x = 0x3FFF) ∧
    (doubleLe (.finite (524287250 / 33553)) (doubleValue x) → runSpeedToReg .nearestHalfAway x = 0xFFFFF) ∧
    (doubleLe (.finite (524287500 / 33553)) (doubleValue x) → runSpeedToReg .truncate x = 0xFFFFF))

/-- 40_converter.md R123: the forward scheme recovers every register value from its reverse, under both rounding
modes. -/
def Obligations.ForwardUndoesReverse : Prop :=
  ∀ (mode : RoundMode) (K off : Rat) (w r : Nat), (K, off, w) ∈ quantities → r ≤ 2 ^ w - 1 →
    convRat mode (rev r K off w) K off w = r

/-! ### The caller and the assembler -/

/-- 70_reset_and_hazards.md R259: the update of the caller's `C` and `L` by the tag of a completed frame, from
Unknown and none. -/
def Obligations.CallerStateFollowsTags : Prop :=
  callerReset = ⟨.unknown, none⟩ ∧
  ∀ (c : Caller) (k : Kind),
    (k.tag.family = .config → callerComplete c k.tag = ⟨.configuring, c.last⟩) ∧
    (k.tag.family = .motion → callerComplete c k.tag = ⟨.motionPending k, some k⟩) ∧
    (k.tag.family = .stop → callerComplete c k.tag = ⟨.idle, none⟩) ∧
    callerComplete c Kind.resetDevice.tag = ⟨.unknown, none⟩ ∧
    callerComplete c Kind.resetPos.tag = c ∧
    callerComplete c Kind.getStatus.tag = c ∧
    (∀ e, callerObserve c (.err e) = c) ∧
    (stopOwed c k = true ↔ ∃ l, c.last = some l ∧ l ≠ k)

/-- 70_reset_and_hazards.md R259: every stop the literal reading of the source requires, the duty on `L` also
requires, after any sequence of completed frames. -/
def Obligations.ConservativeStopCoversLiteral : Prop :=
  ∀ (tags : List Tag) (k : Kind),
    literalStopOwed (callerAfter tags) k = true → stopOwed (callerAfter tags) k = true

/-- 70_reset_and_hazards.md R260: the same motion kind needs no stop, and none is needed with no kind pending;
MOVE and then RUN needs one, MOVE twice does not, and a stop or RESET_DEVICE between them clears it. -/
def Obligations.SameKindOwesNoStop : Prop :=
  (∀ (c : Caller) (k : Kind), c.last = some k ∨ c.last = none → stopOwed c k = false) ∧
  (∀ tags : List Tag,
    stopOwed (callerAfter (tags ++ [⟨.motion, .move⟩])) .run = true ∧
    stopOwed (callerAfter (tags ++ [⟨.motion, .move⟩])) .move = false ∧
    ∀ k, stopOwed (callerAfter (tags ++ [⟨.motion, .move⟩, ⟨.stop, .softStop⟩])) k = false ∧
      stopOwed (callerAfter (tags ++ [⟨.motion, .move⟩, ⟨.reset, .resetDevice⟩])) k = false)

/-- 30_encoding.md R89: the expansions of the pseudo-instructions; INT_SPD needs L6470_TABLE. -/
def Obligations.PseudoInstructionsExpand : Prop :=
  ∀ (mode : RoundMode) (x : Double) (c d : Nat),
    let cfg := { defaultConfig with roundMode := mode }
    let big := { cfg with regTable := l6470Table }
    expandPseudo cfg (.setAcc x) = some { op := .setParam, reg := 0x05, value := accelToReg mode x } ∧
    expandPseudo cfg (.setDec x) = some { op := .setParam, reg := 0x06, value := decToReg mode x } ∧
    expandPseudo cfg (.setMaxSpeed x) = some { op := .setParam, reg := 0x07, value := maxSpeedToReg mode x } ∧
    expandPseudo cfg (.setMinSpeed x 0) = some { op := .setParam, reg := 0x08, value := minSpeedToReg mode x } ∧
    expandPseudo cfg (.setMinSpeed x 1) = some { op := .setParam, reg := 0x08, value := 0x1000 + minSpeedToReg mode x } ∧
    expandPseudo cfg (.setFsSpd x) = some { op := .setParam, reg := 0x15, value := fullStepSpeedToReg mode x } ∧
    expandPseudo cfg (.setIntSpd x) = none ∧
    expandPseudo big (.setIntSpd x) = some { op := .setParam, reg := 0x0D, value := intersectSpeedToReg mode x } ∧
    expandPseudo cfg (.runAt d x) = some { op := .run, dir := d, value := runSpeedToReg mode x } ∧
    expandPseudo cfg (.goUntilAt c d x) = some { op := .goUntil, act := c, dir := d, value := runSpeedToReg mode x }
end

