-- ==== Sys2Proof/Laws/Bits.lean ====
section
/-!
SUPPORT. Byte sequences and masks (00_scope.md R9, R10): lengths, bounds and the round trip of `be` and `unbe`.
-/

namespace Sys2Proof

@[simp] theorem length_be (n v : Nat) : (be n v).length = n := by
  induction n with
  | zero => rfl
  | succ n ih => simp [be, ih]

@[simp] theorem byteOf_toNat (v : Nat) : (byteOf v).toNat = v % 256 := by simp [byteOf]

theorem unbe_be_mod (n v : Nat) : unbe (be n v) = v % 256 ^ n := by
  induction n with
  | zero => simp [be, unbe, Nat.mod_one]
  | succ n ih =>
    simp only [be, unbe, length_be, byteOf_toNat, ih]
    have h := Nat.mod_mul (x := v) (a := 256 ^ n) (b := 256)
    rw [pow_succ, h]; ring

/-- The round trip of 00_scope.md R10. -/
theorem unbe_be {n v : Nat} (h : v < 256 ^ n) : unbe (be n v) = v := by
  rw [unbe_be_mod, Nat.mod_eq_of_lt h]

theorem unbe_lt (bs : List Byte) : unbe bs < 256 ^ bs.length := by
  induction bs with
  | nil => simp [unbe]
  | cons b bs ih =>
    have hb : b.toNat < 256 := b.isLt
    have : b.toNat * 256 ^ bs.length + unbe bs < (b.toNat + 1) * 256 ^ bs.length := by
      rw [Nat.add_mul, Nat.one_mul]; omega
    calc unbe (b :: bs) = b.toNat * 256 ^ bs.length + unbe bs := rfl
      _ < (b.toNat + 1) * 256 ^ bs.length := this
      _ ≤ 256 * 256 ^ bs.length := Nat.mul_le_mul_right _ (by omega)
      _ = 256 ^ (b :: bs).length := by rw [List.length_cons, pow_succ]; ring

theorem mask_lt (w v : Nat) : mask w v < 2 ^ w := Nat.mod_lt _ (by positivity)

@[simp] theorem mask_mask (w v : Nat) : mask w (mask w v) = mask w v := Nat.mod_mod _ _

theorem nbytes_pos (w : Nat) : 1 ≤ nbytes w := by unfold nbytes; split <;> (try split) <;> omega

theorem nbytes_le (w : Nat) : nbytes w ≤ 3 := by unfold nbytes; split <;> (try split) <;> omega

/-- A width up to 24 fits its bytes (00_scope.md R9). -/
theorem le_nbytes {w : Nat} (h : w ≤ 24) : w ≤ 8 * nbytes w := by
  unfold nbytes; split <;> (try split) <;> omega

theorem lt_pow_nbytes {w v : Nat} (h : w ≤ 24) (hv : v < 2 ^ w) : v < 256 ^ nbytes w := by
  have : (256 : Nat) ^ nbytes w = 2 ^ (8 * nbytes w) := by rw [pow_mul]; norm_num
  rw [this]
  exact lt_of_lt_of_le hv (Nat.pow_le_pow_right (by norm_num) (le_nbytes h))

theorem be_three (v : Nat) : be 3 v = [byteOf (v / 65536), byteOf (v / 256), byteOf v] := by
  simp [be]

theorem be_two (v : Nat) : be 2 v = [byteOf (v / 256), byteOf v] := by simp [be]

theorem be_one (v : Nat) : be 1 v = [byteOf v] := by simp [be]

end Sys2Proof
end

