-- ==== Sys2Proof/Laws/Decode.lean ====
section
/-!
SUPPORT. What the register lookup and the decoders can answer.
-/

namespace Sys2Proof

/-- A lookup answers a row of the table at the address asked for (41_config_commands.md R130). -/
theorem lookup_ok {cfg : Config} {a : Nat} {d : RegDesc} (h : lookup cfg a = .ok d) :
    a ≤ 31 ∧ d.addr = a ∧ d ∈ cfg.regTable := by
  unfold lookup at h
  split at h
  · cases h
  · split at h
    · next hf =>
      cases h
      exact ⟨by omega, by simpa using List.find?_some hf, List.mem_of_find?_eq_some hf⟩
    · cases h

/-- The only error of a lookup is E1 with the address (41_config_commands.md R130). -/
theorem lookup_error {cfg : Config} {a : Nat} {e : Err} (h : lookup cfg a = .error e) :
    e = .unknownRegister a := by
  unfold lookup at h
  split at h
  · cases h; rfl
  · split at h <;> cases h
    rfl

/-- A row of a well-formed table has a width in 1..22 (10_state.md R32). -/
theorem lookup_width {cfg : Config} {a : Nat} {d : RegDesc} (hc : configOk cfg = true)
    (h : lookup cfg a = .ok d) : 1 ≤ d.width ∧ d.width ≤ 22 := by
  obtain ⟨-, -, hm⟩ := lookup_ok h
  simp only [configOk, Bool.and_eq_true, List.all_eq_true] at hc
  have := hc.1 d hm
  simp only [descOk, Bool.and_eq_true, decide_eq_true_eq] at this
  exact ⟨this.1.2, this.2⟩

theorem regWidth_of_lookup {cfg : Config} {a : Nat} {d : RegDesc} (h : lookup cfg a = .ok d) :
    regWidth cfg a = d.width := by
  simp [regWidth, h]

/-- What decodeParamResponse can answer (41_config_commands.md R135). -/
theorem decodeParamResponse_ok {cfg : Config} {a v : Nat} {bytes : List Byte}
    (h : decodeParamResponse cfg a bytes = .ok v) :
    ∃ d, lookup cfg a = .ok d ∧ bytes.length = nbytes d.width ∧ v = mask d.width (unbe bytes) := by
  unfold decodeParamResponse at h
  split at h
  · cases h
  · next d hd =>
    split at h
    · cases h
    · next hl => cases h; exact ⟨d, hd, by simpa using hl, rfl⟩

end Sys2Proof
end

