-- ==== Sys2Proof/Laws/State.lean ====
section
/-!
SUPPORT. One lemma for each field of State under each named operation, true by unfolding the operation once, so
that no later proof unfolds a record update.
-/

namespace Sys2Proof.Machine

@[simp] theorem raise_cfg (e : Err) (s : State) : (raise e s).cfg = s.cfg := rfl
@[simp] theorem raise_inbox (e : Err) (s : State) : (raise e s).inbox = s.inbox := rfl
@[simp] theorem raise_answers (e : Err) (s : State) : (raise e s).answers = s.answers := rfl
@[simp] theorem raise_wire (e : Err) (s : State) : (raise e s).wire = s.wire := rfl
@[simp] theorem raise_convOut (e : Err) (s : State) : (raise e s).convOut = s.convOut := rfl
@[simp] theorem raise_decOut (e : Err) (s : State) : (raise e s).decOut = s.decOut := rfl
@[simp] theorem raise_engine_phase (e : Err) (s : State) : (raise e s).engine.phase = s.engine.phase := rfl
@[simp] theorem raise_engine_frame (e : Err) (s : State) : (raise e s).engine.frame = s.engine.frame := rfl
@[simp] theorem raise_engine_ncmd (e : Err) (s : State) : (raise e s).engine.ncmd = s.engine.ncmd := rfl
@[simp] theorem raise_engine_idx (e : Err) (s : State) : (raise e s).engine.idx = s.engine.idx := rfl
@[simp] theorem raise_engine_rx (e : Err) (s : State) : (raise e s).engine.rx = s.engine.rx := rfl
@[simp] theorem raise_engine_resp (e : Err) (s : State) : (raise e s).engine.resp = s.engine.resp := rfl
@[simp] theorem raise_engine_tag (e : Err) (s : State) : (raise e s).engine.tag = s.engine.tag := rfl
@[simp] theorem raise_engine_res (e : Err) (s : State) : (raise e s).engine.res = .err e := rfl

@[simp] theorem emit_cfg (m : Emission) (s : State) : (emit m s).cfg = s.cfg := rfl
@[simp] theorem emit_inbox (m : Emission) (s : State) : (emit m s).inbox = s.inbox := rfl
@[simp] theorem emit_answers (m : Emission) (s : State) : (emit m s).answers = s.answers := rfl
@[simp] theorem emit_wire (m : Emission) (s : State) : (emit m s).wire = s.wire := rfl
@[simp] theorem emit_convOut (m : Emission) (s : State) : (emit m s).convOut = s.convOut := rfl
@[simp] theorem emit_decOut (m : Emission) (s : State) : (emit m s).decOut = s.decOut := rfl
@[simp] theorem emit_engine_phase (m : Emission) (s : State) : (emit m s).engine.phase = .xfer := rfl
@[simp] theorem emit_engine_frame (m : Emission) (s : State) : (emit m s).engine.frame = m.frame := rfl
@[simp] theorem emit_engine_ncmd (m : Emission) (s : State) : (emit m s).engine.ncmd = m.frame.length - nresp s.cfg m.resp := rfl
@[simp] theorem emit_engine_idx (m : Emission) (s : State) : (emit m s).engine.idx = 0 := rfl
@[simp] theorem emit_engine_rx (m : Emission) (s : State) : (emit m s).engine.rx = [] := rfl
@[simp] theorem emit_engine_resp (m : Emission) (s : State) : (emit m s).engine.resp = m.resp := rfl
@[simp] theorem emit_engine_tag (m : Emission) (s : State) : (emit m s).engine.tag = some m.tag := rfl
@[simp] theorem emit_engine_res (m : Emission) (s : State) : (emit m s).engine.res = s.engine.res := rfl

@[simp] theorem convReturn_cfg (v : ConvValue) (s : State) : (convReturn v s).cfg = s.cfg := rfl
@[simp] theorem convReturn_engine (v : ConvValue) (s : State) : (convReturn v s).engine = s.engine := rfl
@[simp] theorem convReturn_inbox (v : ConvValue) (s : State) : (convReturn v s).inbox = s.inbox := rfl
@[simp] theorem convReturn_answers (v : ConvValue) (s : State) : (convReturn v s).answers = s.answers := rfl
@[simp] theorem convReturn_wire (v : ConvValue) (s : State) : (convReturn v s).wire = s.wire := rfl
@[simp] theorem convReturn_convOut (v : ConvValue) (s : State) : (convReturn v s).convOut = some v := rfl
@[simp] theorem convReturn_decOut (v : ConvValue) (s : State) : (convReturn v s).decOut = s.decOut := rfl

@[simp] theorem decReturn_cfg (v : DecValue) (s : State) : (decReturn v s).cfg = s.cfg := rfl
@[simp] theorem decReturn_engine (v : DecValue) (s : State) : (decReturn v s).engine = s.engine := rfl
@[simp] theorem decReturn_inbox (v : DecValue) (s : State) : (decReturn v s).inbox = s.inbox := rfl
@[simp] theorem decReturn_answers (v : DecValue) (s : State) : (decReturn v s).answers = s.answers := rfl
@[simp] theorem decReturn_wire (v : DecValue) (s : State) : (decReturn v s).wire = s.wire := rfl
@[simp] theorem decReturn_convOut (v : DecValue) (s : State) : (decReturn v s).convOut = s.convOut := rfl
@[simp] theorem decReturn_decOut (v : DecValue) (s : State) : (decReturn v s).decOut = some v := rfl

@[simp] theorem exchange_cfg (b : Byte) (s : State) : (exchange b s).cfg = s.cfg := rfl
@[simp] theorem exchange_engine (b : Byte) (s : State) : (exchange b s).engine = s.engine := rfl
@[simp] theorem exchange_inbox (b : Byte) (s : State) : (exchange b s).inbox = s.inbox := rfl
@[simp] theorem exchange_answers (b : Byte) (s : State) : (exchange b s).answers = s.answers.tail := rfl
@[simp] theorem exchange_wire (b : Byte) (s : State) : (exchange b s).wire = s.wire ++ [⟨b, nextAnswer s⟩] := rfl
@[simp] theorem exchange_convOut (b : Byte) (s : State) : (exchange b s).convOut = s.convOut := rfl
@[simp] theorem exchange_decOut (b : Byte) (s : State) : (exchange b s).decOut = s.decOut := rfl

@[simp] theorem transportFailure_cfg (s : State) : (transportFailure s).cfg = s.cfg := rfl
@[simp] theorem transportFailure_engine (s : State) : (transportFailure s).engine = emptied .desync (.err (.transportFail s.engine.idx)) := rfl
@[simp] theorem transportFailure_inbox (s : State) : (transportFailure s).inbox = s.inbox := rfl
@[simp] theorem transportFailure_answers (s : State) : (transportFailure s).answers = s.answers := rfl
@[simp] theorem transportFailure_wire (s : State) : (transportFailure s).wire = s.wire := rfl
@[simp] theorem transportFailure_convOut (s : State) : (transportFailure s).convOut = s.convOut := rfl
@[simp] theorem transportFailure_decOut (s : State) : (transportFailure s).decOut = s.decOut := rfl

@[simp] theorem blockReset_cfg (s : State) : (blockReset s).cfg = s.cfg := rfl
@[simp] theorem blockReset_engine (s : State) : (blockReset s).engine = Engine.reset := rfl
@[simp] theorem blockReset_inbox (s : State) : (blockReset s).inbox = s.inbox := rfl
@[simp] theorem blockReset_answers (s : State) : (blockReset s).answers = s.answers := rfl
@[simp] theorem blockReset_wire (s : State) : (blockReset s).wire = s.wire := rfl
@[simp] theorem blockReset_convOut (s : State) : (blockReset s).convOut = s.convOut := rfl
@[simp] theorem blockReset_decOut (s : State) : (blockReset s).decOut = s.decOut := rfl

@[simp] theorem taken_cfg (s : State) : (taken s).cfg = s.cfg := rfl
@[simp] theorem taken_engine (s : State) : (taken s).engine = s.engine := rfl
@[simp] theorem taken_inbox (s : State) : (taken s).inbox = s.inbox.tail := rfl
@[simp] theorem taken_answers (s : State) : (taken s).answers = s.answers := rfl
@[simp] theorem taken_wire (s : State) : (taken s).wire = s.wire := rfl
@[simp] theorem taken_convOut (s : State) : (taken s).convOut = s.convOut := rfl
@[simp] theorem taken_decOut (s : State) : (taken s).decOut = s.decOut := rfl

@[simp] theorem offer_cfg (i : Instr) (s : State) : (offer i s).cfg = s.cfg := rfl
@[simp] theorem offer_engine (i : Instr) (s : State) : (offer i s).engine = s.engine := rfl
@[simp] theorem offer_inbox (i : Instr) (s : State) : (offer i s).inbox = .request (encodePort i) :: s.inbox := rfl
@[simp] theorem offer_answers (i : Instr) (s : State) : (offer i s).answers = s.answers := rfl
@[simp] theorem offer_wire (i : Instr) (s : State) : (offer i s).wire = s.wire := rfl
@[simp] theorem offer_convOut (i : Instr) (s : State) : (offer i s).convOut = s.convOut := rfl
@[simp] theorem offer_decOut (i : Instr) (s : State) : (offer i s).decOut = s.decOut := rfl

@[simp] theorem emptied_phase (p : Phase) (r : Result) : (emptied p r).phase = p := rfl
@[simp] theorem emptied_frame (p : Phase) (r : Result) : (emptied p r).frame = [] := rfl
@[simp] theorem emptied_ncmd (p : Phase) (r : Result) : (emptied p r).ncmd = 0 := rfl
@[simp] theorem emptied_idx (p : Phase) (r : Result) : (emptied p r).idx = 0 := rfl
@[simp] theorem emptied_rx (p : Phase) (r : Result) : (emptied p r).rx = [] := rfl
@[simp] theorem emptied_resp (p : Phase) (r : Result) : (emptied p r).resp = .none := rfl
@[simp] theorem emptied_tag (p : Phase) (r : Result) : (emptied p r).tag = none := rfl
@[simp] theorem emptied_res (p : Phase) (r : Result) : (emptied p r).res = r := rfl

theorem reset_eq_emptied : Engine.reset = emptied .idle .none := rfl

end Sys2Proof.Machine
end

