-- ==== Sys2Proof/Laws/Ops.lean ====
section
/-!
SUPPORT. What each shared operation can do, said once: the command port, the engine step, `exec` and `step`.
-/

namespace Sys2Proof.Machine

/-- The command port in DESYNC (60_exceptions.md R233). -/
theorem commandPort_desync {s : State} (h : s.engine.phase = .desync) (m : Except Err Emission) :
    commandPort m s = raise .desync s := by simp [commandPort, h]

/-- The command port in XFER (60_exceptions.md R227). -/
theorem commandPort_xfer {s : State} (h : s.engine.phase = .xfer) (m : Except Err Emission) :
    commandPort m s = raise .engineBusy s := by simp [commandPort, h]

/-- The command port in IDLE, the operation's checks failed (60_exceptions.md R230). -/
theorem commandPort_idle_error {s : State} (h : s.engine.phase = .idle) (e : Err) :
    commandPort (.error e) s = raise e s := by simp [commandPort, h]

/-- The command port in IDLE, the frame accepted (60_exceptions.md R231). -/
theorem commandPort_idle_ok {s : State} (h : s.engine.phase = .idle) (m : Emission) :
    commandPort (.ok m) s = emit m s := by simp [commandPort, h]

/-- Everything the command port can do: raise one error, or take a frame in IDLE. -/
theorem commandPort_cases (m : Except Err Emission) (s : State) :
    (∃ e, commandPort m s = raise e s) ∨
    (s.engine.phase = .idle ∧ ∃ em, m = .ok em ∧ commandPort m s = emit em s) := by
  unfold commandPort
  split
  · exact .inl ⟨_, rfl⟩
  · exact .inl ⟨_, rfl⟩
  · next hp =>
    split
    · exact .inl ⟨_, rfl⟩
    · exact .inr ⟨hp, _, rfl, rfl⟩

/-- Everything an operation can do (30_encoding.md R90 to R92): go through the command port, or return a value
on the converter or the decoder port. It always gives a next state. -/
theorem exec_cases (i : Instr) (s : State) :
    ((instrKind i).isSome = true ∧ ∃ m, exec i s = .next (commandPort m s)) ∨
    (instrKind i = none ∧ ∃ v, exec i s = .next (convReturn v s)) ∨
    (instrKind i = none ∧ ∃ v, exec i s = .next (decReturn v s)) := by
  cases i <;>
    first
    | exact .inl ⟨rfl, _, rfl⟩
    | exact .inr (.inl ⟨rfl, _, rfl⟩)
    | exact .inr (.inr ⟨rfl, _, rfl⟩)

/-- Everything the engine step can do (60_exceptions.md R232, R233). -/
theorem engineStep_cases {s t : State} (h : engineStep s = .next t) :
    ∃ b tag, s.engine.frame[s.engine.idx]? = some b ∧ s.engine.tag = some tag ∧
      t = afterAnswer tag (nextAnswer s) (exchange b s) := by
  unfold engineStep at h
  split at h
  · next b tag hb ht => cases h; exact ⟨b, tag, hb, ht, rfl⟩
  · cases h

/-- Everything one turn of the engine can do (60_exceptions.md R232, R236). -/
theorem engineTurn_cases {s t : State} (h : engineTurn s = .next t) :
    (s.engine.phase = .xfer ∧ engineStep s = .next t) ∨ (s.engine.phase ≠ .xfer ∧ t = s) := by
  unfold engineTurn at h
  split at h
  · next hp => exact .inl ⟨hp, h⟩
  · next hp => cases h; exact .inr ⟨by simp [hp], rfl⟩
  · next hp => cases h; exact .inr ⟨by simp [hp], rfl⟩

/-- Everything a step that goes on can do. -/
theorem step_cases {s t : State} (h : step s = .next t) :
    configOk s.cfg = true ∧
    ((s.inbox = [] ∧ engineTurn s = .next t) ∨
     (s.inbox.head? = some .tick ∧ engineTurn (taken s) = .next t) ∨
     (s.inbox.head? = some .reset ∧ t = blockReset (taken s)) ∨
     (∃ p, s.inbox.head? = some (.request p) ∧ exec (decodePort p) (taken s) = .next t)) := by
  unfold step at h
  split at h
  · next hc =>
    refine ⟨hc, ?_⟩
    split at h
    · next hi => exact .inl ⟨hi, h⟩
    · next hi => exact .inr (.inl ⟨by simp [hi], h⟩)
    · next hi => cases h; exact .inr (.inr (.inl ⟨by simp [hi], rfl⟩))
    · next p rest hi => exact .inr (.inr (.inr ⟨p, by simp [hi], h⟩))
  · cases h

/-- The first error of a list of checks, all of which pass (42_motion_commands.md R150). -/
theorem checked_ok {α : Type} {cs : List (Option Err)} {x y : α} (h : checked cs x = .ok y) :
    firstErr cs = none ∧ y = x := by
  unfold checked at h
  split at h
  · cases h
  · next hn => cases h; exact ⟨hn, rfl⟩

end Sys2Proof.Machine
end

