-- ==== Sys2Proof/Laws/PerInstr.lean ====
section
/-!
SUPPORT. For every operation as syntax: the request on its port spells it (30_encoding.md R90 to R92).
-/

namespace Sys2Proof.Laws.PortRoundTrip

/-- The port request of the operation decodes to the operation. -/
def Statement (i : Instr) : Prop := decodePort (encodePort i) = i

theorem setParam (a b : Nat) : Statement (.setParam a b) := rfl
theorem getParam (a : Nat) : Statement (.getParam a) := rfl
theorem setLspdOpt (a : Nat) : Statement (.setLspdOpt a) := rfl
theorem run (a b : Nat) : Statement (.run a b) := rfl
theorem move (a b : Nat) : Statement (.move a b) := rfl
theorem goto (a : Nat) : Statement (.goto a) := rfl
theorem gotoDir (a b : Nat) : Statement (.gotoDir a b) := rfl
theorem goUntil (a b c : Nat) : Statement (.goUntil a b c) := rfl
theorem releaseSw (a b : Nat) : Statement (.releaseSw a b) := rfl
theorem goHome : Statement (.goHome) := rfl
theorem goMark : Statement (.goMark) := rfl
theorem softStop : Statement (.softStop) := rfl
theorem hardStop : Statement (.hardStop) := rfl
theorem softHiz : Statement (.softHiz) := rfl
theorem hardHiz : Statement (.hardHiz) := rfl
theorem resetPos : Statement (.resetPos) := rfl
theorem resetDevice : Statement (.resetDevice) := rfl
theorem getStatus : Statement (.getStatus) := rfl
theorem accToReg (x : Double) : Statement (.accToReg x) := rfl
theorem decToReg (x : Double) : Statement (.decToReg x) := rfl
theorem maxSpeedToReg (x : Double) : Statement (.maxSpeedToReg x) := rfl
theorem minSpeedToReg (x : Double) : Statement (.minSpeedToReg x) := rfl
theorem fsSpdToReg (x : Double) : Statement (.fsSpdToReg x) := rfl
theorem intSpdToReg (x : Double) : Statement (.intSpdToReg x) := rfl
theorem runSpeedToReg (x : Double) : Statement (.runSpeedToReg x) := rfl
theorem regToAcc (r : Nat) : Statement (.regToAcc r) := rfl
theorem regToDec (r : Nat) : Statement (.regToDec r) := rfl
theorem regToMaxSpeed (r : Nat) : Statement (.regToMaxSpeed r) := rfl
theorem regToMinSpeed (r : Nat) : Statement (.regToMinSpeed r) := rfl
theorem regToFsSpd (r : Nat) : Statement (.regToFsSpd r) := rfl
theorem regToIntSpd (r : Nat) : Statement (.regToIntSpd r) := rfl
theorem regToRunSpeed (r : Nat) : Statement (.regToRunSpeed r) := rfl
theorem decodeParam (a : Nat) (bytes : List Byte) : Statement (.decodeParam a bytes) := rfl
theorem decodeStatus (bytes : List Byte) (path : StatusPath) : Statement (.decodeStatus bytes path) := rfl
theorem decodeCommand (b : Byte) : Statement (.decodeCommand b) := rfl
theorem decodeFrame (bytes : List Byte) : Statement (.decodeFrame bytes) := rfl

end Sys2Proof.Laws.PortRoundTrip
end

