-- ==== Sys2Proof/Tests/Slice0.lean ====
section
/-!
SUPPORT. The model's own tests. Expected results come from spec/95_test_vectors.md (W, V and P numbers below) or
are worked out by hand from the rule named. The last part gives, for every statement with hypotheses, concrete
data that meet them, a witness for each clause.
-/

namespace Sys2Proof.Tests

open Sys2Proof Sys2Proof.Machine Sys2Proof.Safety

/-! ### Small states -/

/-- The block just reset, with an engine record put in. -/
def withEngine (e : Engine) : State := { State.reset with engine := e }

/-- MOVE FWD, 5 in flight at index `i` (V-E). -/
def moving (i : Nat) : State :=
  withEngine { phase := .xfer, frame := [0x41, 0x00, 0x00, 0x05], ncmd := 4, idx := i, rx := [], resp := .none,
               tag := some ⟨.motion, .move⟩, res := .none }

/-- GET_STATUS in flight at its last byte, 0x7E received (V-S). -/
def readingStatus : State :=
  withEngine { phase := .xfer, frame := [0xD0, 0x00, 0x00], ncmd := 1, idx := 2, rx := [0x7E], resp := .status,
               tag := some ⟨.status, .getStatus⟩, res := .none }

/-- GET_PARAM of a 16-bit or 12-bit register in flight at its last byte, `b` received (V-C3). -/
def readingParam (a : Nat) (b : Byte) : State :=
  withEngine { phase := .xfer, frame := [BitVec.ofNat 8 (32 + a), 0x00, 0x00], ncmd := 1, idx := 2, rx := [b],
               resp := .param a, tag := some ⟨.config, .getParam⟩, res := .none }

/-- The block in DESYNC after a failure at index 2 (V-E). -/
def desynced : State := withEngine (emptied .desync (.err (.transportFail 2)))

/-- A state with these host events to come. -/
def hosted (es : List HostEvent) (s : State) : State := { s with inbox := es }

/-- A state whose transport answers are known. -/
def answered (as : List (Option Byte)) (s : State) : State := { s with answers := as }

/-- The engine record an operation leaves, from the state given. -/
def engineAfter (i : Instr) (s : State) : Option Engine :=
  match exec i s with
  | .next t => some t.engine
  | .fault _ => none
  | .refused _ => none

/-- The frame an operation puts in flight after reset. -/
def frameAfter (i : Instr) : Option (List Byte) := (engineAfter i State.reset).map (fun e => e.frame)

/-- The result register an operation leaves after reset. -/
def resAfter (i : Instr) : Option Result := (engineAfter i State.reset).map (fun e => e.res)

/-- What the converter port returns. -/
def convAfter (mode : RoundMode) (i : Instr) : Option ConvValue :=
  match exec i { State.reset with cfg := { defaultConfig with roundMode := mode } } with
  | .next t => t.convOut
  | .fault _ => none
  | .refused _ => none

/-- What the decoder port returns. -/
def decAfter (i : Instr) : Option DecValue :=
  match exec i State.reset with
  | .next t => t.decOut
  | .fault _ => none
  | .refused _ => none

/-! ### WellFormed: one ill-formed term for each check, refused by it -/

theorem test_illformed_setParam_unknown : Instr.wellFormed defaultConfig (.setParam 0x1A 1) = false := by decide
theorem test_illformed_setParam_address : Instr.wellFormed defaultConfig (.setParam 40 1) = false := by decide
theorem test_illformed_setParam_readOnly : Instr.wellFormed defaultConfig (.setParam 0x04 1) = false := by decide
theorem test_illformed_getParam_unknown : Instr.wellFormed defaultConfig (.getParam 0x1F) = false := by decide
theorem test_illformed_setLspdOpt_enable : Instr.wellFormed defaultConfig (.setLspdOpt 0) = false := by decide
theorem test_illformed_setLspdOpt_table :
    Instr.wellFormed { defaultConfig with regTable := [] } (.setLspdOpt 1) = false := by decide
theorem test_illformed_run_dir : Instr.wellFormed defaultConfig (.run 2 5) = false := by decide
theorem test_illformed_run_range : Instr.wellFormed defaultConfig (.run 1 0x100000) = false := by decide
theorem test_illformed_move_dir : Instr.wellFormed defaultConfig (.move 2 0) = false := by decide
theorem test_illformed_move_range : Instr.wellFormed defaultConfig (.move 1 0x400000) = false := by decide
theorem test_illformed_goto_range : Instr.wellFormed defaultConfig (.goto 0x400000) = false := by decide
theorem test_illformed_gotoDir_dir : Instr.wellFormed defaultConfig (.gotoDir 2 0) = false := by decide
theorem test_illformed_gotoDir_range : Instr.wellFormed defaultConfig (.gotoDir 0 0x400000) = false := by decide
theorem test_illformed_goUntil_act : Instr.wellFormed defaultConfig (.goUntil 2 0 0) = false := by decide
theorem test_illformed_goUntil_dir : Instr.wellFormed defaultConfig (.goUntil 0 3 0) = false := by decide
theorem test_illformed_goUntil_range : Instr.wellFormed defaultConfig (.goUntil 1 1 0x100000) = false := by decide
theorem test_illformed_releaseSw_act : Instr.wellFormed defaultConfig (.releaseSw 2 0) = false := by decide
theorem test_illformed_releaseSw_dir : Instr.wellFormed defaultConfig (.releaseSw 0 2) = false := by decide
theorem test_illformed_config_width :
    configOk { defaultConfig with regTable := [⟨.acc, 5, 23, .rw⟩] } = false := by decide
theorem test_illformed_config_zero :
    configOk { defaultConfig with regTable := [⟨.acc, 5, 0, .rw⟩] } = false := by decide
theorem test_illformed_config_address :
    configOk { defaultConfig with regTable := [⟨.acc, 32, 12, .rw⟩] } = false := by decide
theorem test_illformed_config_twice :
    configOk { defaultConfig with regTable := [⟨.acc, 5, 12, .rw⟩, ⟨.dec, 5, 12, .rw⟩] } = false := by decide

/-! ### Opcode bytes, written out bit by bit (30_encoding.md R73 to R76) -/

/-- `000aaaaa` with a = 0x07, MAX_SPEED of 10 bits. -/
theorem test_byte_setParam :
    decodeCommand defaultConfig 0b00000111#8 = .ok ⟨.setParam, some 0x07, none, none, 3, 0⟩ := by decide
/-- `001aaaaa` with a = 0x19, STATUS of 16 bits. -/
theorem test_byte_getParam :
    decodeCommand defaultConfig 0b00111001#8 = .ok ⟨.getParam, some 0x19, none, none, 1, 2⟩ := by decide
theorem test_byte_run : decodeCommand defaultConfig 0b01010001#8 = .ok ⟨.run, none, some 1, none, 4, 0⟩ := by decide
theorem test_byte_move : decodeCommand defaultConfig 0b01000000#8 = .ok ⟨.move, none, some 0, none, 4, 0⟩ := by decide
theorem test_byte_goto : decodeCommand defaultConfig 0b01100000#8 = .ok ⟨.goto, none, none, none, 4, 0⟩ := by decide
theorem test_byte_gotoDir :
    decodeCommand defaultConfig 0b01101001#8 = .ok ⟨.gotoDir, none, some 1, none, 4, 0⟩ := by decide
theorem test_byte_goUntil :
    decodeCommand defaultConfig 0b10001010#8 = .ok ⟨.goUntil, none, some 0, some 1, 4, 0⟩ := by decide
theorem test_byte_releaseSw :
    decodeCommand defaultConfig 0b10010011#8 = .ok ⟨.releaseSw, none, some 1, some 0, 1, 0⟩ := by decide
theorem test_byte_goHome :
    decodeCommand defaultConfig 0b01110000#8 = .ok ⟨.goHome, none, none, none, 1, 0⟩ := by decide
theorem test_byte_goMark :
    decodeCommand defaultConfig 0b01111000#8 = .ok ⟨.goMark, none, none, none, 1, 0⟩ := by decide
theorem test_byte_softStop :
    decodeCommand defaultConfig 0b10110000#8 = .ok ⟨.softStop, none, none, none, 1, 0⟩ := by decide
theorem test_byte_hardStop :
    decodeCommand defaultConfig 0b10111000#8 = .ok ⟨.hardStop, none, none, none, 1, 0⟩ := by decide
theorem test_byte_softHiz :
    decodeCommand defaultConfig 0b10100000#8 = .ok ⟨.softHiz, none, none, none, 1, 0⟩ := by decide
theorem test_byte_hardHiz :
    decodeCommand defaultConfig 0b10101000#8 = .ok ⟨.hardHiz, none, none, none, 1, 0⟩ := by decide
theorem test_byte_resetPos :
    decodeCommand defaultConfig 0b11011000#8 = .ok ⟨.resetPos, none, none, none, 1, 0⟩ := by decide
theorem test_byte_resetDevice :
    decodeCommand defaultConfig 0b11000000#8 = .ok ⟨.resetDevice, none, none, none, 1, 0⟩ := by decide
theorem test_byte_getStatus :
    decodeCommand defaultConfig 0b11010000#8 = .ok ⟨.getStatus, none, none, none, 1, 2⟩ := by decide
/-- V-D. -/
theorem test_bytes_unknown :
    ∀ b ∈ [0x00#8, 0x3F#8, 0x42#8, 0x58#8, 0x59#8, 0x61#8, 0x84#8, 0xFF#8],
      decodeCommand defaultConfig b = .error (.unknownCommand b) := by decide
/-- V-D. -/
theorem test_frameLength :
    frameLength defaultConfig 0x21 = .ok 4 ∧ frameLength defaultConfig 0x16 = .ok 2 ∧
      frameLength defaultConfig 0xD0 = .ok 3 ∧ frameLength defaultConfig 0xB0 = .ok 1 ∧
      frameLength defaultConfig 0x58 = .error (.unknownCommand 0x58) := by decide

/-! ### Selectors (30_encoding.md R90, R91) -/

theorem test_selector_accToReg :
    (selectorOf 0b0000#4).map (fun c => decodePort (.converter c 3 7)) = .ok (.accToReg 3) := by decide
theorem test_selector_decToReg :
    (selectorOf 0b0001#4).map (fun c => decodePort (.converter c 3 7)) = .ok (.decToReg 3) := by decide
theorem test_selector_maxSpeedToReg :
    (selectorOf 0b0010#4).map (fun c => decodePort (.converter c 3 7)) = .ok (.maxSpeedToReg 3) := by decide
theorem test_selector_minSpeedToReg :
    (selectorOf 0b0011#4).map (fun c => decodePort (.converter c 3 7)) = .ok (.minSpeedToReg 3) := by decide
theorem test_selector_fsSpdToReg :
    (selectorOf 0b0100#4).map (fun c => decodePort (.converter c 3 7)) = .ok (.fsSpdToReg 3) := by decide
theorem test_selector_intSpdToReg :
    (selectorOf 0b0101#4).map (fun c => decodePort (.converter c 3 7)) = .ok (.intSpdToReg 3) := by decide
theorem test_selector_runSpeedToReg :
    (selectorOf 0b0110#4).map (fun c => decodePort (.converter c 3 7)) = .ok (.runSpeedToReg 3) := by decide
theorem test_selector_regToAcc :
    (selectorOf 0b1000#4).map (fun c => decodePort (.converter c 3 7)) = .ok (.regToAcc 7) := by decide
theorem test_selector_regToDec :
    (selectorOf 0b1001#4).map (fun c => decodePort (.converter c 3 7)) = .ok (.regToDec 7) := by decide
theorem test_selector_regToMaxSpeed :
    (selectorOf 0b1010#4).map (fun c => decodePort (.converter c 3 7)) = .ok (.regToMaxSpeed 7) := by decide
theorem test_selector_regToMinSpeed :
    (selectorOf 0b1011#4).map (fun c => decodePort (.converter c 3 7)) = .ok (.regToMinSpeed 7) := by decide
theorem test_selector_regToFsSpd :
    (selectorOf 0b1100#4).map (fun c => decodePort (.converter c 3 7)) = .ok (.regToFsSpd 7) := by decide
theorem test_selector_regToIntSpd :
    (selectorOf 0b1101#4).map (fun c => decodePort (.converter c 3 7)) = .ok (.regToIntSpd 7) := by decide
theorem test_selector_regToRunSpeed :
    (selectorOf 0b1110#4).map (fun c => decodePort (.converter c 3 7)) = .ok (.regToRunSpeed 7) := by decide
theorem test_selector_unassigned :
    selectorOf 0b0111#4 = .error (.unassigned 7) ∧ selectorOf 0b1111#4 = .error (.unassigned 15) := by decide
theorem test_selector_decoders :
    decodePort (.decoder 0b00#2 5 9 [1] .clearing) = .decodeParam 5 [1] ∧
      decodePort (.decoder 0b01#2 5 9 [1] .clearing) = .decodeStatus [1] .clearing ∧
      decodePort (.decoder 0b10#2 5 9 [1] .clearing) = .decodeCommand 9 ∧
      decodePort (.decoder 0b11#2 5 9 [1] .clearing) = .decodeFrame [1] := by decide

/-! ### Frames and refusals of the command port (V-C, V-M, V-S, P5) -/

theorem test_setParam_masks : frameAfter (.setParam 0x05 0x1FFF) = some [0x05, 0x0F, 0xFF] := by decide
theorem test_setParam_readOnly : resAfter (.setParam 0x04 1) = some (.err (.readOnlyRegister 0x04)) := by decide
theorem test_getParam_fillers : frameAfter (.getParam 0x01) = some [0x21, 0x00, 0x00, 0x00] := by decide
theorem test_getParam_unknown : resAfter (.getParam 0x1F) = some (.err (.unknownRegister 0x1F)) := by decide
theorem test_setLspdOpt_frame : frameAfter (.setLspdOpt 1) = some [0x08, 0x10, 0x00] := by decide
theorem test_setLspdOpt_zero : resAfter (.setLspdOpt 0) = some (.err (.badEnum 0)) := by decide
theorem test_run_frame : frameAfter (.run 1 671060) = some [0x51, 0x0A, 0x3D, 0x54] := by decide
theorem test_run_range : resAfter (.run 1 0x100000) = some (.err (.argRange 0x100000)) := by decide
theorem test_move_frame : frameAfter (.move 1 200) = some [0x41, 0x00, 0x00, 0xC8] := by decide
theorem test_move_top : frameAfter (.move 0 0x3FFFFF) = some [0x40, 0x3F, 0xFF, 0xFF] := by decide
theorem test_goto_top : frameAfter (.goto 0x3FFFFF) = some [0x60, 0x3F, 0xFF, 0xFF] := by decide
theorem test_goto_range : resAfter (.goto 0x400000) = some (.err (.argRange 0x400000)) := by decide
theorem test_gotoDir_frame : frameAfter (.gotoDir 0 0x001000) = some [0x68, 0x00, 0x10, 0x00] := by decide
theorem test_gotoDir_dir_first : resAfter (.gotoDir 2 0x400000) = some (.err (.badEnum 2)) := by decide
theorem test_goUntil_copy_fwd : frameAfter (.goUntil 1 1 671) = some [0x8B, 0x00, 0x02, 0x9F] := by decide
theorem test_goUntil_action_first : resAfter (.goUntil 2 3 0x100000) = some (.err (.badEnum 2)) := by decide
theorem test_releaseSw_copy_rev : frameAfter (.releaseSw 1 0) = some [0x9A] := by decide
theorem test_releaseSw_action_first : resAfter (.releaseSw 2 5) = some (.err (.badEnum 2)) := by decide
theorem test_goHome_frame : frameAfter (.goHome) = some [0x70] := by decide
theorem test_goMark_frame : frameAfter (.goMark) = some [0x78] := by decide
theorem test_softStop_frame : frameAfter (.softStop) = some [0xB0] := by decide
theorem test_hardStop_frame : frameAfter (.hardStop) = some [0xB8] := by decide
theorem test_softHiz_frame : frameAfter (.softHiz) = some [0xA0] := by decide
theorem test_hardHiz_frame : frameAfter (.hardHiz) = some [0xA8] := by decide
theorem test_resetPos_frame : frameAfter (.resetPos) = some [0xD8] := by decide
theorem test_resetDevice_frame : frameAfter (.resetDevice) = some [0xC0] := by decide
theorem test_getStatus_frame : frameAfter (.getStatus) = some [0xD0, 0x00, 0x00] := by decide
/-- 60_exceptions.md R229 (log 11). -/
theorem test_setLspdOpt_E1_before_E3 :
    engineAfter (.setLspdOpt 0) { State.reset with cfg := { defaultConfig with regTable := [] } } =
      some { State.reset.engine with res := .err (.unknownRegister 0x08) } := by decide
/-- V-C1, under L6470_TABLE. -/
theorem test_setParam_intSpd :
    encode { defaultConfig with regTable := l6470Table } (.setParam 0x0D 4194) = some [0x0D, 0x10, 0x62] := by decide
/-- V-C2. -/
theorem test_encodeSetParam_readOnly :
    encodeSetParam defaultConfig 0x04 0x1FFFFF = .ok [0x04, 0x0F, 0xFF, 0xFF] := by decide

/-! ### The engine (V-E, V-C3, V-S) -/

theorem test_busy :
    engineAfter .getStatus (moving 0) = some { (moving 0).engine with res := .err .engineBusy } := by decide
theorem test_desync_first :
    engineAfter (.setParam 0x1A 1) desynced = some { desynced.engine with res := .err .desync } := by decide
/-- The engine record after one step of the machine. -/
def engineStepped (s : State) : Option Engine :=
  match step s with
  | .next t => some t.engine
  | .fault _ => none
  | .refused _ => none

theorem test_step_advances : engineStepped (answered [some 0] (moving 0)) = some (moving 1).engine := by decide
theorem test_step_completes :
    engineStepped (answered [some 0] (moving 3)) = some (emptied .idle (.done ⟨.motion, .move⟩)) := by decide
theorem test_step_fails :
    engineStepped (answered [none] (moving 2)) = some (emptied .desync (.err (.transportFail 2))) := by decide
theorem test_status_clearing :
    engineStepped (answered [some 0x03] readingStatus) =
      some (emptied .idle (.status ⟨.status, .getStatus⟩ .clearing 0x7E03)) := by decide
theorem test_status_nonclearing :
    engineStepped (answered [some 0x03] (readingParam 0x19 0x7E)) =
      some (emptied .idle (.status ⟨.config, .getParam⟩ .nonclearing 0x7E03)) := by decide
/-- The bits above the 12-bit width are masked away (R135). -/
theorem test_param_value :
    engineStepped (answered [some 0x89] (readingParam 0x05 0xF0)) =
      some (emptied .idle (.value ⟨.config, .getParam⟩ 0x05 137)) := by decide
theorem test_reset_from_desync : engineStepped (hosted [.reset] desynced) = some State.reset.engine := by decide
theorem test_reset_aborts : engineStepped (hosted [.reset] (moving 2)) = some State.reset.engine := by decide
/-- The table's MOVE byte, offered on the port, runs at the next step (log 12). -/
theorem test_fetch_word :
    engineStepped (State.reset.withFetchWord 8 0b01000001) =
      some { (moving 0).engine with frame := [0x41, 0x00, 0x00, 0x00] } := by decide

/-! ### The decoder port (V-C5, V-S, V-D) -/

theorem test_decodeParam_masks : decAfter (.decodeParam 0x08 [0xFF, 0xFF]) = some (.param 0x1FFF) := by decide
theorem test_decodeParam_length :
    decAfter (.decodeParam 0x16 [0x00, 0x08]) = some (.err (.responseLength 2)) := by decide
theorem test_decodeStatus_fields :
    decAfter (.decodeStatus [0x7E, 0x03] .clearing) = some (.status
      { path := .clearing, word := 0x7E03, hiz := 1, busy := 1, swF := 0, swEvn := 0, dir := 0, motStatus := .stopped,
        notPerfCmd := 0, wrongCmd := 0, uvlo := 1, thWrn := 1, thSd := 1, ocd := 1, stepLossA := 1, stepLossB := 1,
        sckMod := 0 }) := by decide +kernel
theorem test_decodeStatus_motion :
    (decodeStatus defaultConfig [0x00, 0x20] .clearing).toOption.map (fun f => f.motStatus) = some .accelerating ∧
      (decodeStatus defaultConfig [0x00, 0x40] .clearing).toOption.map (fun f => f.motStatus) = some .decelerating ∧
      (decodeStatus defaultConfig [0x00, 0x60] .clearing).toOption.map (fun f => f.motStatus) = some .constantSpeed :=
    by decide
theorem test_decodeCommand_port :
    decAfter (.decodeCommand 0x04) = some (.command ⟨.setParam, some 0x04, none, none, 4, 0⟩) := by decide
theorem test_decodeCommand_unknown : decAfter (.decodeCommand 0x42) = some (.err (.unknownCommand 0x42)) := by decide
theorem test_decodeFrame_move :
    decAfter (.decodeFrame [0x41, 0x00, 0x00, 0xC8]) = some (.request { op := .move, dir := 1, value := 200 }) :=
    by decide
theorem test_decodeFrame_range :
    decAfter (.decodeFrame [0x51, 0x10, 0x00, 0x00]) = some (.err (.argRange 0x100000)) := by decide

/-! ### The converter port (V-F, V-R): N is NEAREST_HALF_AWAY, T is TRUNCATE -/

/-- x = 3.6381. -/
theorem test_accToReg_rounds :
    convAfter .nearestHalfAway (.accToReg 0x400d1ad42c3c9eed) = some (.reg 1) ∧
      convAfter .truncate (.accToReg 0x400d1ad42c3c9eed) = some (.reg 0) := by decide +kernel
/-- x = 30000.0. -/
theorem test_accToReg_sentinel :
    convAfter .nearestHalfAway (.accToReg 0x40dd4c0000000000) = some (.reg 0xFFF) ∧
      convAfter .truncate (.accToReg 0x40dd4c0000000000) = some (.reg 0xFFF) := by decide +kernel
/-- x = 29791.62. -/
theorem test_decToReg_top :
    convAfter .nearestHalfAway (.decToReg 0x40dd17e7ae147ae1) = some (.reg 0xFFF) ∧
      convAfter .truncate (.decToReg 0x40dd17e7ae147ae1) = some (.reg 0xFFE) := by decide +kernel
/-- x = -5.0. -/
theorem test_decToReg_negative :
    convAfter .nearestHalfAway (.decToReg 0xc014000000000000) = some (.reg 0) ∧
      convAfter .truncate (.decToReg 0xc014000000000000) = some (.reg 0) := by decide +kernel
/-- x = 15602.11181640625. -/
theorem test_maxSpeedToReg_top :
    convAfter .nearestHalfAway (.maxSpeedToReg 0x40ce790e50000000) = some (.reg 0x3FF) ∧
      convAfter .truncate (.maxSpeedToReg 0x40ce790e50000000) = some (.reg 0x3FE) := by decide +kernel
/-- x = 400.0. -/
theorem test_maxSpeedToReg_mid :
    convAfter .nearestHalfAway (.maxSpeedToReg 0x4079000000000000) = some (.reg 26) ∧
      convAfter .truncate (.maxSpeedToReg 0x4079000000000000) = some (.reg 26) := by decide +kernel
/-- x = 10.0. -/
theorem test_minSpeedToReg_mid :
    convAfter .nearestHalfAway (.minSpeedToReg 0x4024000000000000) = some (.reg 42) ∧
      convAfter .truncate (.minSpeedToReg 0x4024000000000000) = some (.reg 41) := by decide +kernel
/-- x = 976.21. -/
theorem test_minSpeedToReg_top :
    convAfter .nearestHalfAway (.minSpeedToReg 0x408e81ae147ae148) = some (.reg 0xFFF) ∧
      convAfter .truncate (.minSpeedToReg 0x408e81ae147ae148) = some (.reg 0xFFE) := by decide +kernel
/-- x = 400.0. -/
theorem test_fsSpdToReg_offset :
    convAfter .nearestHalfAway (.fsSpdToReg 0x4079000000000000) = some (.reg 26) ∧
      convAfter .truncate (.fsSpdToReg 0x4079000000000000) = some (.reg 25) := by decide +kernel
/-- x = 15617.37060546875. -/
theorem test_fsSpdToReg_top :
    convAfter .nearestHalfAway (.fsSpdToReg 0x40ce80af70000000) = some (.reg 0x3FF) ∧
      convAfter .truncate (.fsSpdToReg 0x40ce80af70000000) = some (.reg 0x3FF) := by decide +kernel
/-- x = 1000.0. -/
theorem test_intSpdToReg_mid :
    convAfter .nearestHalfAway (.intSpdToReg 0x408f400000000000) = some (.reg 4194) ∧
      convAfter .truncate (.intSpdToReg 0x408f400000000000) = some (.reg 4194) := by decide +kernel
/-- x = 3905.9. -/
theorem test_intSpdToReg_top :
    convAfter .nearestHalfAway (.intSpdToReg 0x40ae83cccccccccd) = some (.reg 0x3FFF) ∧
      convAfter .truncate (.intSpdToReg 0x40ae83cccccccccd) = some (.reg 0x3FFE) := by decide +kernel
/-- x = 10000.0. -/
theorem test_runSpeedToReg_exact :
    convAfter .nearestHalfAway (.runSpeedToReg 0x40c3880000000000) = some (.reg 671060) ∧
      convAfter .truncate (.runSpeedToReg 0x40c3880000000000) = some (.reg 671060) := by decide +kernel
/-- x = 15625.645. -/
theorem test_runSpeedToReg_top :
    convAfter .nearestHalfAway (.runSpeedToReg 0x40ce84d28f5c28f6) = some (.reg 0xFFFFF) ∧
      convAfter .truncate (.runSpeedToReg 0x40ce84d28f5c28f6) = some (.reg 0xFFFFE) := by decide +kernel
theorem test_regToAcc_mid :
    convAfter .nearestHalfAway (.regToAcc 137) = some (.phys (68500000 / 68719)) := by decide +kernel
theorem test_regToDec_masks :
    convAfter .nearestHalfAway (.regToDec 0x1FFF) = some (.phys (292500000 / 9817)) := by decide +kernel
theorem test_regToMaxSpeed_mid :
    convAfter .nearestHalfAway (.regToMaxSpeed 26) = some (.phys (203125 / 512)) := by decide +kernel
theorem test_regToMinSpeed_masks_lspd :
    convAfter .nearestHalfAway (.regToMinSpeed 0x102A) = some (.phys (140000 / 13981)) := by decide +kernel
theorem test_regToFsSpd_zero :
    convAfter .nearestHalfAway (.regToFsSpd 0) = some (.phys (15625 / 2048)) := by decide +kernel
theorem test_regToIntSpd_masks :
    convAfter .nearestHalfAway (.regToIntSpd 0x4000) = some (.phys (0)) := by decide +kernel
theorem test_regToRunSpeed_exact :
    convAfter .nearestHalfAway (.regToRunSpeed 671060) = some (.phys (10000)) := by decide +kernel
/-- NaN, both infinities, -0.0 and the least subnormal (40_converter.md R103). -/
theorem test_nonfinite :
    runSpeedToReg .nearestHalfAway 0x7FF8000000000000 = 0 ∧ runSpeedToReg .nearestHalfAway 0x7FF0000000000000 = 0xFFFFF ∧
      runSpeedToReg .nearestHalfAway 0xFFF0000000000000 = 0 ∧ runSpeedToReg .nearestHalfAway 0x8000000000000000 = 0 ∧
      runSpeedToReg .nearestHalfAway 1 = 0 := by decide +kernel

/-! ### The assembler and the caller (30_encoding.md R87 to R89, P3) -/

theorem test_line_run :
    parseLine defaultConfig ['R', 'U', 'N', ' ', 'F', 'W', 'D', ',', ' ', '6', '7', '1', '0', '6', '0'] =
      some { op := .run, dir := 1, value := 671060 } := by decide
theorem test_line_setParam :
    parseLine defaultConfig
      ['S', 'E', 'T', '_', 'P', 'A', 'R', 'A', 'M', ' ', 'S', 'T', 'E', 'P', '_', 'M', 'O', 'D', 'E', ',', ' ', '0', 'x', '0', '8'] =
      some { op := .setParam, reg := 0x16, value := 0x08 } := by decide
theorem test_pseudo_setMaxSpeed :
    expandPseudo defaultConfig (.setMaxSpeed 0x4079000000000000) = some { op := .setParam, reg := 0x07, value := 26 } :=
    by decide +kernel
theorem test_errata_across_configuration :
    stopOwed (callerAfter [⟨.motion, .move⟩, ⟨.config, .setParam⟩]) .run = true ∧
      literalStopOwed (callerAfter [⟨.motion, .move⟩, ⟨.config, .setParam⟩]) .run = false := by decide

/-! ### Witnesses: data that meet the hypotheses of each statement -/

theorem test_witness_BlockReset :
    configOk (hosted [.reset] desynced).cfg = true ∧ (hosted [.reset] desynced).inbox = .reset :: [] ∧
      ∃ t, step (hosted [.reset] desynced) = .next t ∧ desynced.engine.phase = .desync ∧ t.engine.phase ≠ .desync :=
    ⟨rfl, rfl, _, rfl, rfl, by decide⟩
theorem test_witness_ResultNone :
    (∃ t, step (hosted [.reset] (moving 2)) = .next t ∧ (hosted [.reset] (moving 2)).inbox.head? = some .reset) ∧
      (∃ t, step (hosted [.reset] desynced) = .next t ∧ desynced.engine.res ≠ .none ∧ t.engine.res = .none) :=
    ⟨⟨_, rfl, rfl⟩, _, rfl, by decide, rfl⟩
theorem test_witness_ConfigurationSurvives :
    (∃ t, step (hosted [.reset] (moving 2)) = .next t) ∧
      (¬ IsCommand (.regToAcc 1) ∧ (∃ t, exec (.regToAcc 1) (moving 2) = .next t) ∧
        ∃ u, exec (.regToAcc 1) (blockReset (moving 2)) = .next u) :=
    ⟨⟨_, rfl⟩, by simp [IsCommand, instrKind], ⟨_, rfl⟩, _, rfl⟩
theorem test_witness_BlockAndChipReset :
    let s := answered [some 0x55] (hosted [.request (.command { op := .resetDevice }), .tick] State.reset)
    configOk s.cfg = true ∧ s.engine.phase = .idle ∧
      s.inbox = .request (.command { op := .resetDevice }) :: .tick :: [] ∧ s.answers = some 0x55 :: [] ∧
      ∃ t, Host.Core.run core 2 s = .next t ∧ t.wire = [⟨0xC0, some 0x55⟩] ∧
        t.engine.res = .done ⟨.reset, .resetDevice⟩ := ⟨rfl, rfl, rfl, rfl, _, rfl, rfl, rfl⟩
theorem test_witness_MalformedConfiguration :
    configOk { defaultConfig with regTable := [⟨.acc, 5, 23, .rw⟩] } = false := by decide
theorem test_witness_StepRuns :
    let s := hosted [.request (.command { op := .move, dir := 1, value := 5 })] State.reset
    configOk s.cfg = true ∧ s.inbox = .request (.command { op := .move, dir := 1, value := 5 }) :: [] ∧
      decodePort (.command { op := .move, dir := 1, value := 5 }) = .move 1 5 ∧
      step s = .next (moving 0) := ⟨rfl, rfl, rfl, rfl⟩
theorem test_witness_EngineMoves :
    ((moving 0).inbox = [] ∧ (moving 0).engine.phase = .xfer) ∧ (desynced.inbox = [] ∧ desynced.engine.phase ≠ .xfer) ∧
      ((hosted [.tick] (moving 3)).inbox = .tick :: [] ∧ (hosted [.tick] (moving 3)).engine.phase = .xfer) ∧
      ((hosted [.tick] State.reset).inbox = .tick :: [] ∧ (hosted [.tick] State.reset).engine.phase ≠ .xfer) :=
    by decide
theorem test_witness_Busy : IsCommand .getStatus ∧ (moving 3).engine.phase = .xfer := ⟨rfl, rfl⟩
theorem test_witness_TransportFailure :
    ((answered [none] (moving 3)).engine.phase = .xfer ∧ (moving 3).engine.frame[(moving 3).engine.idx]? = some 0x05 ∧
      (moving 3).engine.tag = some ⟨.motion, .move⟩ ∧ nextAnswer (answered [none] (moving 3)) = none) ∧
      (IsCommand .softStop ∧ desynced.engine.phase = .desync) ∧
      ∃ t, step desynced = .next t ∧ desynced.inbox.head? ≠ some .reset :=
    ⟨⟨rfl, rfl, rfl, rfl⟩, ⟨rfl, rfl⟩, _, rfl, by decide⟩
theorem test_witness_UnknownRegister :
    (∀ d ∈ defaultConfig.regTable, d.addr ≠ 31) ∧ (∀ d ∈ ({ defaultConfig with regTable := [] } : Config).regTable, d.addr ≠ 0x08) ∧
      (32 ≥ 32 ∧ State.reset.engine.phase = .idle) := by decide
theorem test_witness_ReadOnly :
    State.reset.engine.phase = .idle ∧ lookup State.reset.cfg 0x19 = .ok ⟨.status, 0x19, 16, .ro⟩ ∧
      lookup State.reset.cfg 0x04 = .ok ⟨.speed, 0x04, 20, .ro⟩ ∧ RegDesc.access ⟨.speed, 0x04, 20, .ro⟩ = .ro :=
    by decide
theorem test_witness_UndefinedCodes :
    resAfter (.run 2 0) = some (.err (.badEnum 2)) ∧ resAfter (.goUntil 2 1 0) = some (.err (.badEnum 2)) ∧
      resAfter (.goUntil 1 2 0) = some (.err (.badEnum 2)) ∧ resAfter (.setLspdOpt 2) = some (.err (.badEnum 2)) ∧
      State.reset.engine.phase = .idle := by decide
theorem test_witness_WideArguments :
    resAfter (.run 1 0x100000) = some (.err (.argRange 0x100000)) ∧
      resAfter (.gotoDir 0 0x400000) = some (.err (.argRange 0x400000)) ∧
      resAfter (.run 1 0xFFFFF) = some .none ∧ resAfter (.gotoDir 0 0x3FFFFF) = some .none := by decide
theorem test_witness_FirstError :
    (IsCommand (.setParam 40 1) ∧ Instr.wellFormed desynced.cfg (.setParam 40 1) = false ∧ desynced.engine.phase = .desync) ∧
      (Instr.wellFormed (moving 0).cfg (.setParam 40 1) = false ∧ (moving 0).engine.phase = .xfer) ∧
      (2 > 1 ∧ 0x400000 ≥ 2 ^ 22 ∧ 0x100000 ≥ 2 ^ 20) ∧ admitted defaultConfig 0x02 = false ∧ opFields 0x58 = none ∧
      (0 ≠ 1 ∧ admitted { defaultConfig with regTable := [] } 0x08 = false) ∧ admitted defaultConfig 0x08 = true ∧
      (decodeCommand defaultConfig 0x41 = .ok ⟨.move, none, some 1, none, 4, 0⟩ ∧ ([0, 0] : List Byte).length + 1 ≠ 4 + 0) :=
    ⟨⟨rfl, rfl, rfl⟩, ⟨rfl, rfl⟩, by decide, rfl, rfl, by decide, rfl, rfl, by decide⟩
theorem test_witness_Refusals :
    (∃ t, IsCommand (.move 1 5) ∧ exec (.move 1 5) State.reset = .next t ∧ t = moving 0) ∧
      ∃ t, exec (.move 1 5) desynced = .next t ∧ t = refusedWith .desync desynced := ⟨⟨_, rfl, rfl, rfl⟩, _, rfl, rfl⟩
theorem test_witness_CommandsWriteOnlyEngine :
    IsCommand (.goto 0) ∧ ∃ t, exec (.goto 0) State.reset = .next t ∧ t.engine.phase = .xfer := ⟨rfl, _, rfl, rfl⟩
theorem test_witness_PortCalls : isConverter (.regToAcc 0) = true ∧ isDecoder (.decodeCommand 0) = true := by decide
theorem test_witness_SetParam :
    State.reset.engine.phase = .idle ∧ lookup State.reset.cfg 0x01 = .ok ⟨.absPos, 0x01, 22, .rw⟩ ∧
      frameAfter (.setParam 0x01 0x400000) = some [0x01, 0x00, 0x00, 0x00] := by decide
theorem test_witness_GetParam :
    State.reset.engine.phase = .idle ∧ lookup State.reset.cfg 0x04 = .ok ⟨.speed, 0x04, 20, .ro⟩ ∧
      frameAfter (.getParam 0x04) = some [0x24, 0x00, 0x00, 0x00] := by decide
theorem test_witness_SetLspdOpt :
    lookup State.reset.cfg 0x08 = .ok ⟨.minSpeed, 0x08, 13, .rw⟩ ∧ RegDesc.width ⟨.minSpeed, 0x08, 13, .rw⟩ = 13 ∧
      (∀ d ∈ ({ defaultConfig with regTable := [] } : Config).regTable, d.addr ≠ 0x08) ∧ State.reset.engine.phase = .idle :=
    by decide
/-- RunFrames and GoUntilFrames: each clause at its boundary (V-M). -/
theorem test_witness_Motion20 :
    frameAfter (.run 0 0xFFFFF) = some [0x50, 0x0F, 0xFF, 0xFF] ∧ resAfter (.run 0 0x100000) = some (.err (.argRange 0x100000)) ∧
      resAfter (.run 2 5) = some (.err (.badEnum 2)) ∧
      frameAfter (.goUntil 1 0 0xFFFFF) = some [0x8A, 0x0F, 0xFF, 0xFF] ∧
      resAfter (.goUntil 1 1 0x100000) = some (.err (.argRange 0x100000)) ∧
      resAfter (.goUntil 0 3 0x100000) = some (.err (.badEnum 3)) ∧
      resAfter (.goUntil 2 1 0) = some (.err (.badEnum 2)) := by decide
/-- MoveFrames, GotoFrames and GotoDirFrames: each clause at its boundary (V-M). -/
theorem test_witness_Motion22 :
    frameAfter (.move 1 0x3FFFFF) = some [0x41, 0x3F, 0xFF, 0xFF] ∧ resAfter (.move 1 0x400000) = some (.err (.argRange 0x400000)) ∧
      resAfter (.move 2 0) = some (.err (.badEnum 2)) ∧ frameAfter (.goto 0) = some [0x60, 0x00, 0x00, 0x00] ∧
      resAfter (.goto 0x400000) = some (.err (.argRange 0x400000)) ∧
      frameAfter (.gotoDir 1 0x3FFFFF) = some [0x69, 0x3F, 0xFF, 0xFF] ∧
      resAfter (.gotoDir 1 0x400000) = some (.err (.argRange 0x400000)) ∧ resAfter (.gotoDir 2 0) = some (.err (.badEnum 2)) :=
    by decide
theorem test_witness_ReleaseSw :
    frameAfter (.releaseSw 1 1) = some [0x9B] ∧ resAfter (.releaseSw 2 1) = some (.err (.badEnum 2)) ∧
      resAfter (.releaseSw 1 2) = some (.err (.badEnum 2)) ∧ State.reset.engine.phase = .idle := by decide
theorem test_witness_OneByte : State.reset.engine.phase = .idle := by decide
theorem test_witness_GetStatus :
    let s := answered [some 0xAA, some 0x7E, some 0x03] (hosted [.request (.command { op := .getStatus })] State.reset)
    configOk s.cfg = true ∧ s.engine.phase = .idle ∧ s.inbox = [.request (.command { op := .getStatus })] ∧
      s.answers = some 0xAA :: some 0x7E :: some 0x03 :: [] ∧
      ∃ t, Host.Core.run core 4 s = .next t ∧ t.engine.res = .status ⟨.status, .getStatus⟩ .clearing 0x7E03 :=
    ⟨rfl, rfl, rfl, rfl, _, rfl, rfl⟩
theorem test_witness_EngineExchanges :
    (nextAnswer (answered [some 9] (moving 0)) = some 9 ∧ (moving 0).engine.idx + 1 ≠ (moving 0).engine.frame.length ∧
      (moving 0).engine.frame[(moving 0).engine.idx]? = some 0x41 ∧ (moving 0).engine.tag = some ⟨.motion, .move⟩) ∧
      ((moving 3).engine.idx + 1 = (moving 3).engine.frame.length ∧ (moving 3).engine.resp = .none) ∧
      (readingStatus.engine.idx + 1 = readingStatus.engine.frame.length ∧ readingStatus.engine.resp = .status) ∧
      ((readingParam 0x19 1).engine.idx + 1 = (readingParam 0x19 1).engine.frame.length ∧
        lookup defaultConfig 0x19 = .ok ⟨.status, 0x19, 16, .ro⟩ ∧ ((readingParam 0x19 1).engine.rx ++ [9]).length = nbytes 16) ∧
      (lookup defaultConfig 0x05 = .ok ⟨.acc, 0x05, 12, .rw⟩ ∧ ((readingParam 0x05 1).engine.rx ++ [9]).length = nbytes 12) ∧
      nextAnswer (answered [none] (moving 0)) = none := by decide
theorem test_witness_Index :
    (∃ t, step (hosted [.request (.command { op := .goHome })] State.reset) = .next t ∧ t.engine.phase = .xfer) ∧
      (∃ t, step (answered [some 0] (moving 0)) = .next t ∧ t.engine.phase = .xfer) ∧
      (∃ t, step (answered [some 0] (moving 3)) = .next t ∧ t.engine.phase = .idle ∧ (moving 3).inbox.head? ≠ some .reset) :=
    ⟨⟨_, rfl, rfl⟩, ⟨_, rfl, rfl⟩, _, rfl, rfl, by decide⟩
theorem test_witness_StatusPaths :
    Inv (answered [some 3] readingStatus) ∧ (∃ t, step (answered [some 3] readingStatus) = .next t ∧
        t.engine.res = .status ⟨.status, .getStatus⟩ .clearing 0x7E03 ∧ t.engine.res ≠ readingStatus.engine.res) ∧
      Inv (answered [some 3] (readingParam 0x19 0x7E)) ∧ ∃ t, step (answered [some 3] (readingParam 0x19 0x7E)) = .next t ∧
        t.engine.res = .status ⟨.config, .getParam⟩ .nonclearing 0x7E03 :=
    ⟨⟨rfl, rfl⟩, ⟨_, rfl, rfl, by decide⟩, ⟨rfl, rfl⟩, _, rfl, rfl⟩
theorem test_witness_ChipData :
    Inv (moving 3) ∧ (moving 3).engine.phase = .xfer ∧ (moving 3).inbox = [] := ⟨⟨rfl, rfl⟩, rfl, rfl⟩
theorem test_witness_Invariant :
    Inv (answered [some 0] (moving 0)) ∧ (∃ t, step (answered [some 0] (moving 0)) = .next t) ∧
      Inv (hosted [.request (.command { op := .getParam, reg := 0x19 })] State.reset) ∧
      ∃ t, step (hosted [.request (.command { op := .getParam, reg := 0x19 })] State.reset) = .next t ∧ t.engine.phase = .xfer :=
    ⟨⟨rfl, rfl⟩, ⟨_, rfl⟩, ⟨rfl, rfl⟩, _, rfl, rfl⟩
theorem test_witness_FlightShape :
    Inv readingStatus ∧ readingStatus.engine.phase = .xfer ∧ readingStatus.engine.rx.length = 1 :=
    ⟨⟨rfl, rfl⟩, rfl, rfl⟩
theorem test_witness_AcceptedFrame :
    let i : Instr := .getParam 0x19
    let f : List Byte := [0x39, 0x00, 0x00]
    let bytes : List Byte := [0xFF, 0x7E, 0x03]
    let s := answered (bytes.map some ++ []) (hosted (.request (encodePort i) :: (ticks f.length ++ [])) State.reset)
    configOk s.cfg = true ∧ s.engine.phase = .idle ∧ encode s.cfg i = some f ∧ bytes.length = f.length ∧
      finalResult s.cfg i bytes = some (.status ⟨.config, .getParam⟩ .nonclearing 0x7E03) ∧
      ∃ t, Host.Core.run core (1 + f.length) s = .next t ∧ t.wire = transactions f bytes ∧
        t.engine.res = .status ⟨.config, .getParam⟩ .nonclearing 0x7E03 := ⟨rfl, rfl, rfl, rfl, rfl, _, rfl, rfl, rfl⟩
theorem test_witness_FrameDecodes :
    configOk State.reset.cfg = true ∧ State.reset.engine.phase = .idle ∧ regWidth State.reset.cfg 0x08 = 13 ∧
      ∃ t, exec (decodeRequest { op := .setLspdOpt, enable := 1 }) State.reset = .next t ∧ t.engine.phase = .xfer ∧
        decodeFrame defaultConfig t.engine.frame = .ok { op := .setParam, reg := 0x08, value := 0x1000 } ∧
        ∃ u, exec (decodeRequest { op := .setParam, reg := 0x08, value := 0x3000 }) State.reset = .next u ∧
          u.engine.phase = .xfer ∧ u.engine.frame = t.engine.frame :=
    ⟨rfl, rfl, rfl, _, rfl, rfl, rfl, _, rfl, rfl, rfl⟩
theorem test_witness_ResponseRoundTrip :
    configOk defaultConfig = true ∧ lookup defaultConfig 0x19 = .ok ⟨.status, 0x19, 16, .ro⟩ := by decide
theorem test_witness_CommandBytes :
    lookup defaultConfig 0x01 = .ok ⟨.absPos, 0x01, 22, .rw⟩ ∧ admitted defaultConfig 31 = false ∧ admitted defaultConfig 0 = false :=
    by decide
theorem test_witness_DecodeParam :
    lookup defaultConfig 0x16 = .ok ⟨.stepMode, 0x16, 8, .rw⟩ ∧ ([0x08] : List Byte).length = nbytes 8 ∧
      ([0x00, 0x08] : List Byte).length ≠ nbytes 8 ∧ admitted defaultConfig 0x02 = false := by decide
theorem test_witness_DecodeStatus :
    State.reset.cfg.statusLayout = defaultLayout ∧ ([0x7E] : List Byte).length ≠ 2 := by decide
theorem test_witness_CommandDecoders :
    (decodeCommand defaultConfig 0x51 = .ok ⟨.run, none, some 1, none, 4, 0⟩ ∧ Kind.argWidth .run = some 20 ∧
        unbe [0x10, 0x00, 0x00] ≥ 2 ^ 20 ∧ unbe [0x0F, 0xFF, 0xFF] < 2 ^ 20) ∧
      (∀ c, decodeCommand defaultConfig 0x58 ≠ .ok c) ∧
      (decodeCommand defaultConfig 0x05 = .ok ⟨.setParam, some 0x05, none, none, 3, 0⟩ ∧ ([0x05, 0x1F, 0xFF] : List Byte).length = 3 + 0) ∧
      (decodeCommand defaultConfig 0xD0 = .ok ⟨.getStatus, none, none, none, 1, 2⟩ ∧ Kind.argWidth .getStatus = none) := by
  refine ⟨by decide, ?_, by decide, by decide⟩
  intro c h
  rw [show decodeCommand defaultConfig 0x58 = .error (.unknownCommand 0x58) from rfl] at h
  cases h
theorem test_witness_NonFinite :
    (137438 / 1000000, 0, 12) ∈ quantities ∧ doubleValue 0x7FF8000000000000 = .nan ∧ doubleValue 0x7FF0000000000000 = .posInf ∧
      doubleValue 0xFFF0000000000000 = .negInf ∧ doubleExp 0x000FFFFFFFFFFFFF = 0 :=
    ⟨by simp [quantities], by decide +kernel, by decide +kernel, by decide +kernel, by decide +kernel⟩
theorem test_witness_Fit :
    isConverter (.minSpeedToReg 0x7FF0000000000000) = true ∧ ∃ t, exec (.minSpeedToReg 0x7FF0000000000000) State.reset = .next t ∧
      t.convOut = some (.reg 0xFFF) := ⟨rfl, _, rfl, by decide +kernel⟩
theorem test_witness_Monotone :
    (65536 / 1000000, 0, 10) ∈ quantities ∧ doubleValue 0x4079000000000000 = .finite 400 ∧
      doubleValue 0x408F000000000000 = .finite 992 ∧ doubleLe (.finite 400) (.finite 992) :=
    ⟨by simp [quantities], by decide +kernel, by decide +kernel, by simp only [doubleLe]; norm_num⟩
theorem test_witness_Saturate :
    doubleValue 0x40CE790E50000000 = .finite (31953125 / 2048) ∧ doubleLe (.finite (31953125 / 2048)) (.finite (31953125 / 2048)) ∧
      doubleValue 0x8000000000000000 = .finite 0 ∧ doubleLe (.finite (524287500 / 33553)) (doubleValue 0x7FF0000000000000) := by
  refine ⟨by decide +kernel, le_refl _, by decide +kernel, ?_⟩
  rw [show doubleValue 0x7FF0000000000000 = .posInf from by decide +kernel]
  trivial
theorem test_witness_ForwardUndoesReverse :
    (67106 / 1000, 0, 20) ∈ quantities ∧ 0xFFFFF ≤ 2 ^ 20 - 1 ∧
      convRat .truncate (rev 0xFFFFF (67106 / 1000) 0 20) (67106 / 1000) 0 20 = 0xFFFFF :=
    ⟨by simp [quantities], by decide, by decide +kernel⟩
theorem test_witness_CallerState :
    Kind.setLspdOpt.tag.family = .config ∧ Kind.goMark.tag.family = .motion ∧ Kind.hardHiz.tag.family = .stop :=
    by decide
theorem test_witness_ConservativeStop : literalStopOwed (callerAfter [⟨.motion, .move⟩]) .run = true := by decide
theorem test_witness_SameKind :
    (callerAfter [⟨.motion, .move⟩]).last = some .move ∧ (callerAfter []).last = none := by decide
theorem test_witness_WireGrows :
    (∃ t, step (hosted [.request (.command { op := .goHome })] State.reset) = .next t ∧
        State.reset.engine.phase ≠ .xfer ∧ t.engine.phase = .xfer) ∧
      ∃ t, step (answered [some 0] (moving 0)) = .next t ∧ t.wire = [⟨0x41, some 0⟩] :=
    ⟨⟨_, rfl, by decide, rfl⟩, _, rfl, rfl⟩
theorem test_witness_NoRunFaults :
    Inv (hosted [.request (.converter ⟨.reverse, .runSpeed⟩ 0 1)] State.reset) := ⟨rfl, rfl⟩
theorem test_witness_Sentinel :
    (137438 / 1000000, 0, 12) ∈ quantities ∧ (65536 / 1000000, 1 / 2, 10) ∈ quantities := by simp [quantities]
/-- ResultNoneMeansNoRequestEnded: a refusal, a completion and a failure, each from NONE. -/
theorem test_witness_ResultNone_ends :
    (∃ t, step (hosted [.request (.command { op := .run, dir := 2 })] State.reset) = .next t ∧
        State.reset.engine.res = .none ∧ t.engine.phase = .idle ∧ t.engine.res = .err (.badEnum 2)) ∧
      (∃ t, step (answered [some 0] (moving 3)) = .next t ∧ (moving 3).engine.res = .none ∧ t.engine.phase = .idle ∧
        t.engine.res = .done ⟨.motion, .move⟩) ∧
      ∃ t, step (answered [none] (moving 3)) = .next t ∧ t.engine.phase = .desync ∧ t.engine.res = .err (.transportFail 3) :=
    ⟨⟨_, rfl, rfl, rfl, rfl⟩, ⟨_, rfl, rfl, rfl, rfl⟩, _, rfl, rfl, rfl⟩
/-- StatusPathsStayDistinct: a second read with the same word. -/
theorem test_witness_StatusPaths_same :
    let s := { answered [some 3] readingStatus with engine := { readingStatus.engine with res := .status ⟨.status, .getStatus⟩ .clearing 0x7E03 } }
    Inv s ∧ s.engine.phase = .xfer ∧ s.inbox.head? ≠ some .reset ∧
      ∃ t, step s = .next t ∧ t.engine.phase = .idle ∧ t.engine.res = s.engine.res :=
    ⟨⟨rfl, rfl⟩, rfl, by decide, _, rfl, rfl, rfl⟩
/-- ForwardConvertersReturn: NaN, an infinity, the least subnormal, and 400 = 2^8 * 25/16. -/
theorem test_witness_ForwardFields :
    let e : Double → Nat := fun x => x.toNat / 2 ^ 52 % 2 ^ 11
    let f : Double → Nat := fun x => x.toNat % 2 ^ 52
    (e 0x7FF8000000000000 = 2047 ∧ f 0x7FF8000000000000 ≠ 0) ∧ (e 0xFFF0000000000000 = 2047 ∧ f 0xFFF0000000000000 = 0) ∧
      (e 1 = 0 ∧ f 1 = 1) ∧ (e 0x4079000000000000 = 1031 ∧ f 0x4079000000000000 = 2 ^ 52 / 16 * 9) := by decide
theorem test_witness_RoundNegative :
    (0 : Rat) ≤ 1 / 2 ∧ roundRat .nearestHalfAway (1 / 2) = 1 ∧ roundRat .truncate (1 / 2) = 0 ∧ (-1 / 2 : Rat) < 0 ∧
      roundRat .nearestHalfAway (-1 / 2) = -1 ∧ roundRat .truncate (-1 / 2) = 0 := by decide +kernel

end Sys2Proof.Tests
end

section
/-!
PROOFS. Configurations and commands: when a configuration is well formed (10_state.md R32), what an opcode byte
decodes to, and the lengths of a decoded command (30_encoding.md R79, R86).
-/

namespace Sys2Proof

theorem descOk_iff (d : RegDesc) : descOk d = true ↔ d.addr ≤ 31 ∧ 1 ≤ d.width ∧ d.width ≤ 22 := by
  simp [descOk, and_assoc]

theorem addrsDistinct_iff (ds : List RegDesc) :
    addrsDistinct ds = true ↔ (ds.map (fun d => d.addr)).Nodup := by
  induction ds with
  | nil => simp [addrsDistinct]
  | cons d ds ih => simp [addrsDistinct, ih]

theorem configOk_iff (cfg : Config) :
    configOk cfg = true ↔ (∀ d ∈ cfg.regTable, d.addr ≤ 31 ∧ 1 ≤ d.width ∧ d.width ≤ 22) ∧
      (cfg.regTable.map (fun d => d.addr)).Nodup := by
  simp [configOk, descOk_iff, addrsDistinct_iff]

/-! ### What an opcode byte decodes to -/

theorem opFields_setParam {a : Nat} (ha : a ≤ 31) :
    opFields (byteOf (0x00 ||| a)) = some { kind := .setParam, a := some a } := by
  have all : ∀ a < 32, opFields (byteOf (0x00 ||| a)) = some { kind := .setParam, a := some a } := by decide
  exact all a (by omega)

theorem opFields_getParam {a : Nat} (ha : a ≤ 31) :
    opFields (byteOf (0x20 ||| a)) = some { kind := .getParam, a := some a } := by
  have all : ∀ a < 32, opFields (byteOf (0x20 ||| a)) = some { kind := .getParam, a := some a } := by decide
  exact all a (by omega)

theorem opFields_run {d : Nat} (hd : d ≤ 1) :
    opFields (byteOf (0x50 ||| d)) = some { kind := .run, d := some d } := by interval_cases d <;> rfl

theorem opFields_move {d : Nat} (hd : d ≤ 1) :
    opFields (byteOf (0x40 ||| d)) = some { kind := .move, d := some d } := by interval_cases d <;> rfl

theorem opFields_gotoDir {d : Nat} (hd : d ≤ 1) :
    opFields (byteOf (0x68 ||| d)) = some { kind := .gotoDir, d := some d } := by interval_cases d <;> rfl

theorem opFields_goUntil {c d : Nat} (hc : c ≤ 1) (hd : d ≤ 1) :
    opFields (actDirOp 0x82 c d) = some { kind := .goUntil, d := some d, c := some c } := by
  interval_cases c <;> interval_cases d <;> rfl

theorem opFields_releaseSw {c d : Nat} (hc : c ≤ 1) (hd : d ≤ 1) :
    opFields (actDirOp 0x92 c d) = some { kind := .releaseSw, d := some d, c := some c } := by
  interval_cases c <;> interval_cases d <;> rfl

/-- No FIXED form is a GET_PARAM (30_encoding.md R76). -/
theorem fixedKind_ne_getParam (b : Nat) : fixedKind b ≠ some .getParam := by
  unfold fixedKind
  repeat' split
  all_goals decide

/-- A GET_PARAM byte names its register (44_decoders.md R202). -/
theorem opFields_getParam_names_register {b : Byte} {f : OpFields} (h : opFields b = some f)
    (hk : f.kind = .getParam) : ∃ a, f.a = some a := by
  simp only [opFields] at h
  split at h
  · cases h; exact ⟨_, rfl⟩
  · -- the three DIR forms and the two ACTDIR forms have other kinds; then the FIXED forms
    iterate 5 (split at h; · cases h; cases hk)
    split at h
    · next k hf =>
      cases h
      obtain rfl : k = .getParam := hk
      exact absurd hf (fixedKind_ne_getParam _)
    · cases h

theorem decodeCommand_of_no_register {cfg : Config} {b : Byte} {f : OpFields} (h : opFields b = some f)
    (ha : f.a = none) : decodeCommand cfg b = .ok (cmdOf f 0) := by
  simp [decodeCommand, h, ha]

theorem decodeCommand_of_register {cfg : Config} {b : Byte} {f : OpFields} {a : Nat} {d : RegDesc}
    (h : opFields b = some f) (ha : f.a = some a) (hd : lookup cfg a = .ok d) :
    decodeCommand cfg b = .ok (cmdOf f d.width) := by
  simp [decodeCommand, h, ha, hd]

/-- What decodeCommand can answer (44_decoders.md R200): a command with its lengths from the width of the register
it names, or of no register. -/
theorem decodeCommand_ok {cfg : Config} {b : Byte} {c : Cmd} (h : decodeCommand cfg b = .ok c) :
    ∃ f w, opFields b = some f ∧ c = cmdOf f w ∧ ∀ a, f.a = some a → regWidth cfg a = w := by
  unfold decodeCommand at h
  split at h
  · cases h
  · next f hf =>
    split at h
    · next ha => cases h; exact ⟨f, 0, hf, rfl, by simp [ha]⟩
    · next a ha =>
      split at h
      · next d hd =>
        cases h
        refine ⟨f, d.width, hf, rfl, fun a' ha' => ?_⟩
        obtain rfl : a = a' := by simpa [ha] using ha'
        exact regWidth_of_lookup hd
      · cases h

/-! ### The lengths of a command (30_encoding.md R79, R86) -/

theorem Kind.payloadBytes_le (k : Kind) (w : Nat) : k.payloadBytes w ≤ 3 := by
  have := nbytes_le w
  cases k <;> simp [payloadBytes, argWidth, nbytes] at * <;> omega

theorem Kind.respBytes_le (k : Kind) (w : Nat) : k.respBytes w ≤ 3 := by
  have := nbytes_le w
  cases k <;> simp [respBytes, *]

/-- Only GET_PARAM and GET_STATUS have a response. -/
theorem Kind.respBytes_eq_zero {k : Kind} (hparam : k ≠ .getParam) (hstatus : k ≠ .getStatus) (w : Nat) :
    k.respBytes w = 0 := by
  unfold respBytes
  split
  · exact absurd rfl hparam
  · exact absurd rfl hstatus
  · rfl

theorem Kind.payload_or_response (k : Kind) (w : Nat) : k.payloadBytes w = 0 ∨ k.respBytes w = 0 := by
  cases k <;> simp [payloadBytes, respBytes, argWidth]

/-- The lengths of a decoded command: an opcode byte, at most 4 bytes, and never both a payload and a response
(10_state.md R25, 44_decoders.md R207). -/
theorem decodeCommand_lengths {cfg : Config} {b : Byte} {c : Cmd} (h : decodeCommand cfg b = .ok c) :
    1 ≤ c.ncmd ∧ c.ncmd + c.nresp ≤ 4 ∧ (c.ncmd = 1 ∨ c.nresp = 0) := by
  obtain ⟨f, w, -, rfl, -⟩ := decodeCommand_ok h
  have hp := f.kind.payloadBytes_le w
  have hr := f.kind.respBytes_le w
  have := f.kind.payload_or_response w
  simp only [cmdOf]
  omega

end Sys2Proof

namespace Sys2Proof.Machine

open Sys2Proof.Safety

/-- A kind without response bytes has no response to read (10_state.md R27). -/
theorem respOf_eq_none {f : OpFields} {w : Nat} (h : f.kind.respBytes w = 0) : respOf (cmdOf f w) = .none := by
  have := nbytes_pos w
  simp only [respOf, cmdOf]
  split
  · next hk => simp [hk, Kind.respBytes] at h; omega
  · next hk => simp [hk, Kind.respBytes] at h
  · rfl

/-- The response length the engine computes (60_exceptions.md R231) is that of the decoded command. -/
theorem nresp_respOf {cfg : Config} {b : Byte} {c : Cmd} (h : decodeCommand cfg b = .ok c) :
    nresp cfg (respOf c) = c.nresp := by
  obtain ⟨f, w, hf, rfl, hw⟩ := decodeCommand_ok h
  by_cases hparam : f.kind = .getParam
  · obtain ⟨a, ha⟩ := opFields_getParam_names_register hf hparam
    simp [respOf, cmdOf, nresp, Kind.respBytes, hparam, ha, hw a ha]
  by_cases hstatus : f.kind = .getStatus
  · simp [respOf, cmdOf, nresp, Kind.respBytes, hstatus]
  · have hresp := Kind.respBytes_eq_zero hparam hstatus w
    rw [respOf_eq_none hresp]
    exact hresp.symm

end Sys2Proof.Machine
end

section
/-!
PROOFS. The frames the command port emits (30_encoding.md R71 to R82): each is one frame of the command its opcode
byte decodes to.
-/

namespace Sys2Proof.Machine

open Sys2Proof.Safety

/-- The emission is one frame of one command (10_state.md R25, R27, R28; 30_encoding.md R71): the command's opcode
byte and payload, then a FILLER for each response byte, with the command's response and tag. -/
def FramesCommand (cfg : Config) (em : Emission) : Prop :=
  ∃ op payload c, decodeCommand cfg op = .ok c ∧ payload.length + 1 = c.ncmd ∧
    em = ⟨op :: payload ++ List.replicate c.nresp cfg.filler, respOf c, c.kind.tag⟩

/-- An opcode byte and the payload of a command without a response. -/
theorem framesCommand_of_no_response {cfg : Config} {f : OpFields} {w : Nat} {op : Byte} {payload : List Byte}
    (hop : decodeCommand cfg op = .ok (cmdOf f w)) (hresp : f.kind.respBytes w = 0)
    (hlen : payload.length = f.kind.payloadBytes w) : FramesCommand cfg ⟨op :: payload, .none, f.kind.tag⟩ := by
  have hn : (cmdOf f w).nresp = 0 := hresp
  refine ⟨op, payload, cmdOf f w, hop, ?_, ?_⟩
  · simp [cmdOf, hlen, Nat.add_comm]
  · simp only [respOf_eq_none hresp, hn, List.replicate_zero, List.append_nil]
    rfl

/-! ### Operand checks -/

theorem firstErr_eq_none {cs : List (Option Err)} : firstErr cs = none ↔ ∀ c ∈ cs, c = none := by
  induction cs with
  | nil => simp [firstErr]
  | cons c cs ih => cases c <;> simp [firstErr, ih]

theorem checkDir_eq_none {d : Nat} : checkDir d = none ↔ d ≤ 1 := by simp [checkDir]

theorem checkAct_eq_none {c : Nat} : checkAct c = none ↔ c ≤ 1 := by simp [checkAct]

/-! ### The configuration family -/

theorem encodeSetParam_ok {cfg : Config} {a v : Nat} {frame : List Byte} (h : encodeSetParam cfg a v = .ok frame) :
    ∃ d, lookup cfg a = .ok d ∧ frame = byteOf (0x00 ||| a) :: be (nbytes d.width) (mask d.width v) := by
  unfold encodeSetParam at h
  split at h
  · cases h
  · next d hd => cases h; exact ⟨d, hd, rfl⟩

theorem framesCommand_encodeSetParam {cfg : Config} {a v : Nat} {frame : List Byte}
    (h : encodeSetParam cfg a v = .ok frame) : FramesCommand cfg ⟨frame, .none, Kind.setParam.tag⟩ := by
  obtain ⟨d, hd, rfl⟩ := encodeSetParam_ok h
  obtain ⟨ha, -, -⟩ := lookup_ok hd
  exact framesCommand_of_no_response (decodeCommand_of_register (opFields_setParam ha) rfl hd) rfl (length_be _ _)

theorem framesCommand_setParam {cfg : Config} {a v : Nat} {em : Emission}
    (h : setParamEmission cfg a v = .ok em) : FramesCommand cfg em := by
  unfold setParamEmission at h
  split at h
  · cases h
  · split at h
    · cases h
    · split at h
      · next hf => cases h; exact framesCommand_encodeSetParam hf
      · cases h

theorem framesCommand_setLspdOpt {cfg : Config} {e : Nat} {em : Emission}
    (h : setLspdOptEmission cfg e = .ok em) : FramesCommand cfg em := by
  unfold setLspdOptEmission at h
  split at h
  · cases h
  · next hf =>
    obtain ⟨-, rfl⟩ := checked_ok h
    exact framesCommand_encodeSetParam hf

theorem framesCommand_getParam {cfg : Config} {a : Nat} {em : Emission}
    (h : getParamEmission cfg a = .ok em) : FramesCommand cfg em := by
  unfold getParamEmission at h
  split at h
  · cases h
  · next d hd =>
    obtain ⟨ha, -, -⟩ := lookup_ok hd
    simp only [encodeGetParam, hd] at h
    cases h
    exact ⟨_, [], _, decodeCommand_of_register (opFields_getParam ha) rfl hd, rfl, rfl⟩

/-! ### The motion family -/

/-- A motion command: its checks let its opcode byte spell the command, and the payload is that of its kind. -/
theorem framesCommand_motion {cfg : Config} {cs : List (Option Err)} {f : OpFields} {op : Byte}
    {payload : List Byte} {em : Emission} (hop : (∀ c ∈ cs, c = none) → opFields op = some f) (ha : f.a = none)
    (hresp : f.kind.respBytes 0 = 0) (hlen : payload.length = f.kind.payloadBytes 0)
    (h : checked cs (motionEmission f.kind (op :: payload)) = .ok em) : FramesCommand cfg em := by
  obtain ⟨hcs, rfl⟩ := checked_ok h
  exact framesCommand_of_no_response (decodeCommand_of_no_register (hop (firstErr_eq_none.1 hcs)) ha) hresp hlen

theorem dir_le_of_checks {cs : List (Option Err)} {d : Nat} (h : ∀ c ∈ cs, c = none) (hd : checkDir d ∈ cs) :
    d ≤ 1 := checkDir_eq_none.1 (h _ hd)

theorem act_le_of_checks {cs : List (Option Err)} {c : Nat} (h : ∀ e ∈ cs, e = none) (hc : checkAct c ∈ cs) :
    c ≤ 1 := checkAct_eq_none.1 (h _ hc)

/-! ### One byte, and the status read -/

/-- The one-byte commands (30_encoding.md R76, R80). -/
theorem framesCommand_oneByte {cfg : Config} {k : Kind} {op : Byte} {em : Emission}
    (hop : opFields op = some { kind := k }) (hresp : k.respBytes 0 = 0) (hpay : k.payloadBytes 0 = 0)
    (h : (.ok ⟨[op], .none, k.tag⟩ : Except Err Emission) = .ok em) : FramesCommand cfg em := by
  cases h
  exact framesCommand_of_no_response (decodeCommand_of_no_register hop rfl) hresp hpay.symm

theorem framesCommand_getStatus {cfg : Config} {em : Emission}
    (h : (.ok ⟨readFrame cfg 0xD0 2, .status, Kind.getStatus.tag⟩ : Except Err Emission) = .ok em) :
    FramesCommand cfg em := by
  cases h
  exact ⟨0xD0, [], _, decodeCommand_of_no_register (f := { kind := .getStatus }) rfl rfl, rfl, rfl⟩

/-- Every command-port operation goes through the port with checks that let through only a frame of one command. -/
theorem exec_command (i : Instr) (s : State) (hi : (instrKind i).isSome = true) :
    ∃ m, exec i s = .next (commandPort m s) ∧ ∀ em, m = .ok em → FramesCommand s.cfg em := by
  cases i
  case setParam => exact ⟨_, rfl, fun _ => framesCommand_setParam⟩
  case getParam => exact ⟨_, rfl, fun _ => framesCommand_getParam⟩
  case setLspdOpt => exact ⟨_, rfl, fun _ => framesCommand_setLspdOpt⟩
  case run d v =>
    exact ⟨_, rfl, fun _ => framesCommand_motion (fun h => opFields_run (dir_le_of_checks h (by simp))) rfl rfl
      (length_be 3 v)⟩
  case move d n =>
    exact ⟨_, rfl, fun _ => framesCommand_motion (fun h => opFields_move (dir_le_of_checks h (by simp))) rfl rfl
      (length_be 3 n)⟩
  case goto p =>
    exact ⟨_, rfl, fun _ => framesCommand_motion (f := { kind := .goto }) (fun _ => rfl) rfl rfl (length_be 3 p)⟩
  case gotoDir d p =>
    exact ⟨_, rfl, fun _ => framesCommand_motion (fun h => opFields_gotoDir (dir_le_of_checks h (by simp))) rfl rfl
      (length_be 3 p)⟩
  case goUntil c d v =>
    exact ⟨_, rfl, fun _ => framesCommand_motion (fun h => opFields_goUntil (act_le_of_checks h (by simp))
      (dir_le_of_checks h (by simp))) rfl rfl (length_be 3 v)⟩
  case releaseSw c d =>
    exact ⟨_, rfl, fun _ => framesCommand_motion (fun h => opFields_releaseSw (act_le_of_checks h (by simp))
      (dir_le_of_checks h (by simp))) rfl rfl rfl⟩
  case getStatus => exact ⟨_, rfl, fun _ => framesCommand_getStatus⟩
  case goHome | goMark | softStop | hardStop | softHiz | hardHiz | resetPos | resetDevice =>
    exact ⟨_, rfl, fun _ => framesCommand_oneByte rfl rfl rfl⟩
  all_goals cases hi

end Sys2Proof.Machine
end

section
/-!
PROOFS. What one step does to the state, case by case: the rules that the statements about every step go through.
-/

namespace Sys2Proof.Machine

open Sys2Proof.Safety

/-! ### An answered byte advances the frame or completes it (60_exceptions.md R232) -/

section
variable (tag : Tag) (r : Byte) {s : State}

theorem advance_last (hlast : s.engine.idx + 1 = s.engine.frame.length) :
    advance tag r s =
      { s with engine := emptied .idle (completion s.cfg s.engine.resp tag (received s.engine r)) } := by
  simp [advance, hlast]

theorem advance_more (hmore : s.engine.idx + 1 ≠ s.engine.frame.length) :
    advance tag r s =
      { s with engine := { s.engine with idx := s.engine.idx + 1, rx := received s.engine r } } := by
  simp [advance, hmore]

end

/-! ### The engine's step and turn (60_exceptions.md R232, R236) -/

section
variable {s : State}

theorem engineStep_next {b : Byte} {tag : Tag} (hb : s.engine.frame[s.engine.idx]? = some b)
    (htag : s.engine.tag = some tag) :
    engineStep s = .next (afterAnswer tag (nextAnswer s) (exchange b s)) := by
  simp [engineStep, hb, htag]

theorem engineStep_without_byte (hb : s.engine.frame[s.engine.idx]? = none) :
    engineStep s = .fault .malformedEngine := by
  simp [engineStep, hb]

theorem engineStep_without_tag (htag : s.engine.tag = none) : engineStep s = .fault .malformedEngine := by
  simp [engineStep, htag]

theorem engineTurn_xfer (hphase : s.engine.phase = .xfer) : engineTurn s = engineStep s := by
  simp [engineTurn, hphase]

theorem engineTurn_waits (hphase : s.engine.phase ≠ .xfer) : engineTurn s = .next s := by
  cases h : s.engine.phase with
  | xfer => exact absurd h hphase
  | idle | desync => simp [engineTurn, h]

end

/-! ### The step, by the host's event (60_exceptions.md R242; log 1, log 9) -/

section
variable {s : State}

theorem step_malformedConfig (hcfg : configOk s.cfg = false) : step s = .refused .malformedConfig := by
  simp [step, hcfg]

variable (hcfg : configOk s.cfg = true)
include hcfg

theorem step_nil (hi : s.inbox = []) : step s = engineTurn s := by simp [step, hcfg, hi]

theorem step_tick {rest : List HostEvent} (hi : s.inbox = .tick :: rest) : step s = engineTurn (taken s) := by
  simp [step, hcfg, hi]

theorem step_reset {rest : List HostEvent} (hi : s.inbox = .reset :: rest) :
    step s = .next (blockReset (taken s)) := by
  simp [step, hcfg, hi]

theorem step_request {p : PortRequest} {rest : List HostEvent} (hi : s.inbox = .request p :: rest) :
    step s = exec (decodePort p) (taken s) := by
  simp [step, hcfg, hi]

end

/-- With no host event to take, nothing is taken (log 1). -/
theorem taken_of_nil {s : State} (h : s.inbox = []) : taken s = s := by
  simp only [taken, h, List.tail_nil]
  rw [← h]

@[simp] theorem nextAnswer_taken (s : State) : nextAnswer (taken s) = nextAnswer s := rfl

/-! ### Every effect of a step -/

/-- What a step that goes on does, by its cause: the host's event and the engine's answer (60_exceptions.md R230 to
R233, R236, R242). -/
inductive StepEffect (s : State) : State → Prop where
  | waits (hphase : s.engine.phase ≠ .xfer) : StepEffect s (taken s)
  | advances {b r : Byte} {tag : Tag} (hphase : s.engine.phase = .xfer)
      (hb : s.engine.frame[s.engine.idx]? = some b) (htag : s.engine.tag = some tag) (ha : nextAnswer s = some r)
      (hmore : s.engine.idx + 1 ≠ s.engine.frame.length) :
      StepEffect s (advance tag r (exchange b (taken s)))
  | completes {b r : Byte} {tag : Tag} (hphase : s.engine.phase = .xfer)
      (hb : s.engine.frame[s.engine.idx]? = some b) (htag : s.engine.tag = some tag) (ha : nextAnswer s = some r)
      (hlast : s.engine.idx + 1 = s.engine.frame.length) :
      StepEffect s (advance tag r (exchange b (taken s)))
  | fails {b : Byte} (hphase : s.engine.phase = .xfer) (hb : s.engine.frame[s.engine.idx]? = some b)
      (ha : nextAnswer s = none) : StepEffect s (transportFailure (exchange b (taken s)))
  | resets (hhost : s.inbox.head? = some .reset) : StepEffect s (blockReset (taken s))
  | converts (v : ConvValue) : StepEffect s (convReturn v (taken s))
  | decodes (v : DecValue) : StepEffect s (decReturn v (taken s))
  | refuses (e : Err) : StepEffect s (raise e (taken s))
  | accepts {em : Emission} (hphase : s.engine.phase = .idle) (hframe : FramesCommand s.cfg em) :
      StepEffect s (emit em (taken s))

theorem stepEffect_of_engineTurn {s t : State} (h : engineTurn (taken s) = .next t) : StepEffect s t := by
  obtain ⟨hphase, h⟩ | ⟨hphase, rfl⟩ := engineTurn_cases h
  · obtain ⟨b, tag, hb, htag, rfl⟩ := engineStep_cases h
    rw [nextAnswer_taken]
    cases ha : nextAnswer s with
    | none => exact .fails hphase hb ha
    | some r =>
      by_cases hlast : s.engine.idx + 1 = s.engine.frame.length
      · exact .completes hphase hb htag ha hlast
      · exact .advances hphase hb htag ha hlast
  · exact .waits hphase

theorem stepEffect_of_exec {i : Instr} {s t : State} (h : exec i (taken s) = .next t) : StepEffect s t := by
  obtain ⟨hi, -⟩ | ⟨-, v, hv⟩ | ⟨-, v, hv⟩ := exec_cases i (taken s)
  · obtain ⟨m, hm, hframe⟩ := exec_command i (taken s) hi
    rw [hm] at h
    cases h
    obtain ⟨e, he⟩ | ⟨hphase, em, hem, he⟩ := commandPort_cases m (taken s)
    · rw [he]; exact .refuses e
    · rw [he]; exact .accepts hphase (hframe em hem)
  · rw [hv] at h; cases h; exact .converts v
  · rw [hv] at h; cases h; exact .decodes v

/-- Everything a step that goes on can do. -/
theorem step_effect {s t : State} (h : step s = .next t) : StepEffect s t := by
  obtain ⟨-, ⟨hnil, h⟩ | ⟨-, h⟩ | ⟨hhost, rfl⟩ | ⟨p, -, h⟩⟩ := step_cases h
  · exact stepEffect_of_engineTurn (by rwa [taken_of_nil hnil])
  · exact stepEffect_of_engineTurn h
  · exact .resets hhost
  · exact stepEffect_of_exec h

end Sys2Proof.Machine
end

section
/-!
PROOFS. The invariant of the engine record (10_state.md R23 to R28): what it says, and which changes of the record
keep it.
-/

namespace Sys2Proof.Safety

open Sys2Proof.Machine

theorem frameOk_iff {cfg : Config} {e : Engine} :
    frameOk cfg e = true ↔ ∃ op rest c, e.frame = op :: rest ∧ decodeCommand cfg op = .ok c ∧
      e.tag = some c.kind.tag ∧ c.ncmd = e.ncmd ∧ c.ncmd + c.nresp = e.frame.length ∧ e.resp = respOf c ∧
      e.frame.drop e.ncmd = List.replicate c.nresp cfg.filler := by
  constructor
  · intro h
    unfold frameOk at h
    split at h
    · next op rest tag hf ht =>
      split at h
      · next c hc =>
        simp only [Bool.and_eq_true, decide_eq_true_eq] at h
        obtain ⟨⟨⟨⟨rfl, hn⟩, hl⟩, hr⟩, hfill⟩ := h
        exact ⟨op, rest, c, hf, hc, ht, hn, hl, hr, hfill⟩
      · cases h
    · cases h
  · rintro ⟨op, rest, c, hf, hc, ht, hn, hl, hr, hfill⟩
    rw [hf] at hl hfill
    simpa [frameOk, hf, ht, hc, hn, hr, hfill] using hl

theorem flightOk_iff {cfg : Config} {e : Engine} :
    flightOk cfg e = true ↔ 1 ≤ e.ncmd ∧ e.ncmd ≤ e.frame.length ∧ e.frame.length ≤ 4 ∧
      e.idx < e.frame.length ∧ e.rx.length = e.idx - e.ncmd ∧ (e.ncmd = 1 ∨ e.ncmd = e.frame.length) ∧
      frameOk cfg e = true := by
  simp [flightOk, and_assoc]

theorem engineOk_xfer {cfg : Config} {e : Engine} (h : e.phase = .xfer) : engineOk cfg e = flightOk cfg e := by
  simp [engineOk, h]

theorem engineOk_emptied_idle (cfg : Config) (r : Result) : engineOk cfg (emptied .idle r) = true := by
  simp [engineOk]

theorem engineOk_emptied_desync (cfg : Config) (r : Result) : engineOk cfg (emptied .desync r) = true := by
  simp [engineOk]

/-- The invariant does not read `res` (10_state.md R42). -/
theorem engineOk_res {cfg : Config} {e : Engine} (r : Result) (h : engineOk cfg e = true) :
    engineOk cfg { e with res := r } = true := by
  unfold engineOk at h ⊢
  cases hp : e.phase with
  | xfer =>
    rw [hp] at h
    exact h
  | idle =>
    have he : e = emptied .idle e.res := by simpa [hp] using h
    rw [he]; simp [emptied]
  | desync =>
    have he : e = emptied .desync e.res := by simpa [hp] using h
    rw [he]; simp [emptied]

/-- A frame the port accepts starts an allowed record (60_exceptions.md R231). -/
theorem engineOk_emit {em : Emission} {s : State} (hframe : FramesCommand s.cfg em) :
    engineOk s.cfg (emit em s).engine = true := by
  obtain ⟨op, payload, c, hc, hlen, rfl⟩ := hframe
  obtain ⟨hpos, hle, hone⟩ := decodeCommand_lengths hc
  have hncmd : (emit ⟨op :: payload ++ List.replicate c.nresp s.cfg.filler, respOf c, c.kind.tag⟩ s).engine.ncmd
      = c.ncmd := by
    simp [nresp_respOf hc]; omega
  rw [engineOk_xfer rfl, flightOk_iff, frameOk_iff, hncmd]
  refine ⟨hpos, ?_, ?_, ?_, ?_, ?_, op, _, c, rfl, hc, rfl, rfl, ?_, rfl, ?_⟩
  · simp; omega
  · simp; omega
  · simp
  · simp
  · simp; omega
  · simp; omega
  · simp [← hlen]

/-- An exchange before the last one keeps the record allowed (10_state.md R26, 60_exceptions.md R232). -/
theorem engineOk_advance {cfg : Config} {e : Engine} (r : Byte) (hphase : e.phase = .xfer)
    (h : engineOk cfg e = true) (hmore : e.idx + 1 ≠ e.frame.length) :
    engineOk cfg { e with idx := e.idx + 1, rx := received e r } = true := by
  rw [engineOk_xfer hphase, flightOk_iff] at h
  obtain ⟨hpos, hle, hlen, hidx, hrx, hone, hframe⟩ := h
  rw [engineOk_xfer (by exact hphase), flightOk_iff]
  have hrx' : (received e r).length = e.idx + 1 - e.ncmd := by
    unfold received
    split
    · simp; omega
    · omega
  exact ⟨hpos, hle, hlen, by simp; omega, hrx', hone, hframe⟩

/-- Settles O36: whatever a step does to the engine record keeps it allowed. -/
theorem engineInvariantKept : Obligations.EngineInvariantKept := by
  rintro s t ⟨hcfg, heng⟩ h
  cases step_effect h with
  | waits _ => exact ⟨hcfg, heng⟩
  | @advances b r tag hphase _ _ _ hmore =>
    rw [advance_more (s := exchange b (taken s)) tag r hmore]
    exact ⟨hcfg, engineOk_advance r hphase heng hmore⟩
  | @completes b r tag _ _ _ _ hlast =>
    rw [advance_last (s := exchange b (taken s)) tag r hlast]
    exact ⟨hcfg, engineOk_emptied_idle _ _⟩
  | fails _ _ _ => exact ⟨hcfg, engineOk_emptied_desync _ _⟩
  | resets _ => exact ⟨hcfg, engineOk_emptied_idle _ _⟩
  | converts _ => exact ⟨hcfg, heng⟩
  | decodes _ => exact ⟨hcfg, heng⟩
  | refuses _ => exact ⟨hcfg, engineOk_res _ heng⟩
  | accepts _ hframe => exact ⟨hcfg, engineOk_emit hframe⟩

/-- Settles O38: the invariant's clauses in XFER, the first byte's length by its decoded command. -/
theorem flightRecordShape : Obligations.FlightRecordShape := by
  rintro s ⟨-, heng⟩ hphase
  rw [engineOk_xfer hphase, flightOk_iff, frameOk_iff] at heng
  obtain ⟨hpos, hle, hlen, hidx, hrx, hone, op, rest, c, hf, hc, -, -, hn, -, hfill⟩ := heng
  refine ⟨hidx.le, hlen, hpos, hle, by simpa using hrx, hone, ?_, op, rest, hf, ?_⟩
  · rw [hfill]
    exact fun b hb => List.eq_of_mem_replicate hb
  · simp only [frameLength, hc, hn]

end Sys2Proof.Safety
end

section
/-!
PROOFS. The other statements about the state: the configuration's check, the frame of the commands, the index, and
the result register that no operation reads.
-/

namespace Sys2Proof.Safety

open Sys2Proof.Machine

/-- Settles O5: the check is `configOk_iff`, and the step makes it first. -/
theorem malformedConfigurationRefused : Obligations.MalformedConfigurationRefused := by
  exact ⟨configOk_iff, fun _ => step_malformedConfig, by decide, by decide⟩

/-- Settles O17: the command port raises one error or, in IDLE, takes a frame. -/
theorem commandsWriteOnlyEngine : Obligations.CommandsWriteOnlyEngine := by
  intro i s t hi h
  obtain ⟨m, hm, -⟩ := exec_command i s hi
  rw [hm] at h
  cases h
  obtain ⟨e, he⟩ | ⟨hphase, em, -, he⟩ := commandPort_cases m s
  · rw [he]
    exact ⟨rfl, rfl, rfl, rfl, rfl, rfl, .inl ⟨e, rfl⟩⟩
  · rw [he]
    exact ⟨rfl, rfl, rfl, rfl, rfl, rfl, .inr ⟨hphase, rfl, rfl, rfl, rfl⟩⟩

/-- Settles O31: only an accepted frame sets `idx` to 0 and only an answered byte moves it; a port call and a refused
request keep phase, `idx` and wire. -/
theorem indexAdvancesByOne : Obligations.IndexAdvancesByOne := by
  intro s t h
  cases step_effect h with
  | waits hphase => simp [hphase]
  | @advances b r tag hphase _ _ ha hmore =>
    simp [advance_more (s := exchange b (taken s)) tag r hmore, hphase, ha]
  | @completes b r tag hphase _ _ ha hlast =>
    simp [advance_last (s := exchange b (taken s)) tag r hlast, hphase, ha, hlast]
  | fails hphase _ _ => simp [hphase]
  | resets hhost => simp [hhost, Engine.reset]
  | converts v => simp_all
  | decodes v => simp_all
  | refuses e => simp_all
  | accepts hphase hframe => simp [hphase]

/-! ### No operation reads `res` -/

/-- Two outcomes that are the same, or differ in `res` alone with the old content `old` kept in one and the content
`new` in the other (10_state.md R42). -/
inductive AgreeButRes (old new : Result) :
    Host.Outcome State Fault Refusal → Host.Outcome State Fault Refusal → Prop where
  | same (o : Host.Outcome State Fault Refusal) : AgreeButRes old new o o
  | kept (t : State) (h : t.engine.res = old) : AgreeButRes old new (.next t) (.next (withRes new t))

section
variable (s : State) (r : Result)

theorem commandPort_withRes (m : Except Err Emission) :
    AgreeButRes s.engine.res r (.next (commandPort m s)) (.next (commandPort m (withRes r s))) := by
  cases hp : s.engine.phase with
  | desync =>
    rw [commandPort_desync hp, commandPort_desync (s := withRes r s) hp]
    exact .same _
  | xfer =>
    rw [commandPort_xfer hp, commandPort_xfer (s := withRes r s) hp]
    exact .same _
  | idle =>
    cases m with
    | error e =>
      rw [commandPort_idle_error hp, commandPort_idle_error (s := withRes r s) hp]
      exact .same _
    | ok em =>
      rw [commandPort_idle_ok hp, commandPort_idle_ok (s := withRes r s) hp]
      exact .kept (emit em s) rfl

theorem exec_withRes (i : Instr) : AgreeButRes s.engine.res r (exec i s) (exec i (withRes r s)) := by
  cases i
  case accToReg | decToReg | maxSpeedToReg | minSpeedToReg | fsSpdToReg | intSpdToReg | runSpeedToReg | regToAcc |
      regToDec | regToMaxSpeed | regToMinSpeed | regToFsSpd | regToIntSpd | regToRunSpeed =>
    exact .kept (convReturn _ s) rfl
  case decodeParam | decodeStatus | decodeCommand | decodeFrame => exact .kept (decReturn _ s) rfl
  all_goals exact commandPort_withRes s r _

theorem afterAnswer_withRes (tag : Tag) (a : Option Byte) :
    AgreeButRes s.engine.res r (.next (afterAnswer tag a s)) (.next (afterAnswer tag a (withRes r s))) := by
  cases a with
  | none => exact .same _
  | some b =>
    by_cases hlast : s.engine.idx + 1 = s.engine.frame.length
    · simp only [afterAnswer, advance_last _ _ hlast, advance_last (s := withRes r s) _ _ hlast]
      exact .same _
    · simp only [afterAnswer, advance_more _ _ hlast, advance_more (s := withRes r s) _ _ hlast]
      exact .kept _ rfl

theorem engineStep_withRes : AgreeButRes s.engine.res r (engineStep s) (engineStep (withRes r s)) := by
  cases hb : s.engine.frame[s.engine.idx]? with
  | none =>
    rw [engineStep_without_byte hb, engineStep_without_byte (s := withRes r s) hb]
    exact .same _
  | some b =>
    cases htag : s.engine.tag with
    | none =>
      rw [engineStep_without_tag htag, engineStep_without_tag (s := withRes r s) htag]
      exact .same _
    | some tag =>
      rw [engineStep_next hb htag, engineStep_next (s := withRes r s) hb htag]
      exact afterAnswer_withRes (exchange b s) r tag (nextAnswer s)

theorem engineTurn_withRes : AgreeButRes s.engine.res r (engineTurn s) (engineTurn (withRes r s)) := by
  by_cases hphase : s.engine.phase = .xfer
  · rw [engineTurn_xfer hphase, engineTurn_xfer (s := withRes r s) hphase]
    exact engineStep_withRes s r
  · rw [engineTurn_waits hphase, engineTurn_waits (s := withRes r s) hphase]
    exact .kept s rfl

theorem step_withRes : AgreeButRes s.engine.res r (step s) (step (withRes r s)) := by
  cases hcfg : configOk s.cfg with
  | false =>
    rw [step_malformedConfig hcfg, step_malformedConfig (s := withRes r s) hcfg]
    exact .same _
  | true =>
    cases hi : s.inbox with
    | nil =>
      rw [step_nil hcfg hi, step_nil (s := withRes r s) hcfg hi]
      exact engineTurn_withRes s r
    | cons event rest =>
      cases event with
      | tick =>
        rw [step_tick hcfg hi, step_tick (s := withRes r s) hcfg hi]
        exact engineTurn_withRes (taken s) r
      | reset =>
        rw [step_reset hcfg hi, step_reset (s := withRes r s) hcfg hi]
        exact .same _
      | request p =>
        rw [step_request hcfg hi, step_request (s := withRes r s) hcfg hi]
        exact exec_withRes (taken s) r (decodePort p)

end

/-- Settles O35: the two outcomes agree, or differ in the result that both keep. -/
theorem resultNeverRead : Obligations.ResultNeverRead := by
  intro s r
  have hagree := step_withRes s r
  generalize step s = o, step (withRes r s) = o' at hagree ⊢
  cases hagree with
  | same o => cases o <;> simp
  | kept t ht => exact .inr ⟨rfl, ht⟩

end Sys2Proof.Safety
end

section
/-!
PROOFS. Who exchanges a byte and who starts a frame (20_memory.md R59, R60, R64; 60_exceptions.md R236): a step makes
at most one exchange, and only a command request starts a frame.
-/

namespace Sys2Proof.Machine

open Sys2Proof.Safety

/-- Only the command port carries a command (30_encoding.md R90 to R92). -/
theorem command_of_instrKind_decodePort {p : PortRequest} (h : (instrKind (decodePort p)).isSome = true) :
    ∃ q, p = .command q := by
  cases p with
  | command q => exact ⟨q, rfl⟩
  | converter csel x r =>
    obtain ⟨side, quantity⟩ := csel
    cases side <;> cases quantity <;> cases h
  | decoder dsel a b bytes path =>
    simp only [decodePort, decodeDecoder] at h
    split at h <;> cases h

/-- A turn of the engine outside XFER starts no frame (60_exceptions.md R236). -/
theorem engineTurn_starts_no_frame {s t : State} (h : engineTurn s = .next t) (hs : s.engine.phase ≠ .xfer) :
    t.engine.phase ≠ .xfer := by
  rw [engineTurn_waits hs] at h
  cases h
  exact hs

/-- A request that starts a frame is a command (20_memory.md R60). -/
theorem command_of_exec_starts_frame {p : PortRequest} {s t : State} (h : exec (decodePort p) s = .next t)
    (hs : s.engine.phase ≠ .xfer) (ht : t.engine.phase = .xfer) : ∃ q, p = .command q := by
  obtain ⟨hp, -⟩ | ⟨-, v, hv⟩ | ⟨-, v, hv⟩ := exec_cases (decodePort p) s
  · exact command_of_instrKind_decodePort hp
  · rw [hv] at h; cases h; exact absurd ht hs
  · rw [hv] at h; cases h; exact absurd ht hs

/-- A step into XFER takes a command request (20_memory.md R60, 60_exceptions.md R236). -/
theorem command_of_step_starts_frame {s t : State} (h : step s = .next t) (hs : s.engine.phase ≠ .xfer)
    (ht : t.engine.phase = .xfer) : ∃ q, s.inbox.head? = some (.request (.command q)) := by
  obtain ⟨-, ⟨-, h⟩ | ⟨-, h⟩ | ⟨-, rfl⟩ | ⟨p, hp, h⟩⟩ := step_cases h
  · exact absurd ht (engineTurn_starts_no_frame h hs)
  · exact absurd ht (engineTurn_starts_no_frame h hs)
  · cases ht
  · obtain ⟨q, rfl⟩ := command_of_exec_starts_frame h hs ht
    exact ⟨q, hp⟩

@[simp] theorem advance_wire (tag : Tag) (r : Byte) (s : State) : (advance tag r s).wire = s.wire := by
  unfold advance; split <;> rfl

@[simp] theorem advance_answers (tag : Tag) (r : Byte) (s : State) : (advance tag r s).answers = s.answers := by
  unfold advance; split <;> rfl

/-- Settles O32: a step makes an exchange in its three effects of XFER (an answer before the last, the last, FAIL) and
in no other. -/
theorem wireGrowsOneTransaction : Obligations.WireGrowsOneTransaction := by
  refine fun s t h => ⟨?_, command_of_step_starts_frame h⟩
  cases step_effect h with
  | @advances b _ _ hphase hb _ _ _ => exact .inr ⟨hphase, by simp, b, hb, by simp⟩
  | @completes b _ _ hphase hb _ _ _ => exact .inr ⟨hphase, by simp, b, hb, by simp⟩
  | @fails b hphase hb _ => exact .inr ⟨hphase, by simp, b, hb, by simp⟩
  | waits _ | resets _ | converts _ | decodes _ | refuses _ | accepts _ _ => exact .inl ⟨rfl, rfl⟩

end Sys2Proof.Machine
end

section
/-!
PROOFS. The frame of `encode` (30_encoding.md R71 to R82): the command port accepts it, and its completion gives the
operation's result (60_exceptions.md R231, R232).
-/

namespace Sys2Proof.Machine

open Sys2Proof.Safety

/-- Every operation is spelt by the request on its port (30_encoding.md R90 to R92). -/
theorem decodePort_encodePort (i : Instr) : decodePort (encodePort i) = i := by cases i <;> rfl

/-! ### Acceptance: the frame `encode` gives is the one in flight (60_exceptions.md R231) -/

theorem checkArg_eq_none {v w : Nat} : checkArg v w = none ↔ v < 2 ^ w := by simp [checkArg]

theorem checkEnable_eq_none {e : Nat} : checkEnable e = none ↔ e = 1 := by simp [checkEnable]

theorem checked_of_pass {α : Type} {cs : List (Option Err)} {x : α} (h : ∀ c ∈ cs, c = none) :
    checked cs x = .ok x := by
  simp [checked, firstErr_eq_none.2 h]

/-- How the response of an operation is read (10_state.md R27). -/
def instrResp : Instr → Resp
  | .getParam a => .param a
  | .getStatus => .status
  | _ => .none

/-- An operation with a frame is well formed. -/
theorem wellFormed_of_encode {cfg : Config} {i : Instr} {f : List Byte} (h : encode cfg i = some f) :
    i.wellFormed cfg = true := by
  unfold encode at h
  split at h
  · assumption
  · cases h

theorem admitted_iff {cfg : Config} {a : Nat} : admitted cfg a = true ↔ ∃ d, lookup cfg a = .ok d := by
  unfold admitted
  cases lookup cfg a <;> simp [Except.isOk, Except.toBool]

/-- The port takes the emission of an operation whose checks pass. -/
theorem commandPort_checked {cs : List (Option Err)} (em : Emission) (s : State) (h : ∀ c ∈ cs, c = none) :
    commandPort (checked cs em) s = commandPort (.ok em) s := by
  rw [checked_of_pass h]

theorem setParamEmission_of_rw {cfg : Config} {a v : Nat} {d : RegDesc} {f : List Byte} (hd : lookup cfg a = .ok d)
    (hrw : d.access = .rw) (hf : encodeSetParam cfg a v = .ok f) :
    setParamEmission cfg a v = .ok ⟨f, .none, Kind.setParam.tag⟩ := by
  simp [setParamEmission, hd, hrw, hf]

theorem getParamEmission_of_lookup {cfg : Config} {a : Nat} {d : RegDesc} (hd : lookup cfg a = .ok d) :
    getParamEmission cfg a =
      .ok ⟨readFrame cfg (byteOf (0x20 ||| a)) (nbytes (regWidth cfg a)), .param a, Kind.getParam.tag⟩ := by
  simp [getParamEmission, encodeGetParam, hd, regWidth_of_lookup hd]

theorem setLspdOptEmission_one {cfg : Config} {f : List Byte} (hf : encodeSetParam cfg minSpeedAddr 0x1000 = .ok f) :
    setLspdOptEmission cfg 1 = .ok ⟨f, .none, Kind.setLspdOpt.tag⟩ := by
  simp [setLspdOptEmission, hf, checked_of_pass, checkEnable_eq_none]

theorem eq_ok_of_toOption {ε α : Type} {x : Except ε α} {y : α} (h : x.toOption = some y) : x = .ok y := by
  cases x <;> cases h
  rfl

/-- The operation with a frame is a command, and the port takes this frame in IDLE. -/
theorem exec_of_encode {i : Instr} {s : State} {f : List Byte} (h : encode s.cfg i = some f) :
    ∃ k, instrKind i = some k ∧ exec i s = .next (commandPort (.ok ⟨f, instrResp i, k.tag⟩) s) := by
  have hwf := wellFormed_of_encode h
  simp only [encode, hwf, if_true] at h
  cases i
  case setParam a v =>
    have hf := eq_ok_of_toOption h
    obtain ⟨d, hd, -⟩ := encodeSetParam_ok hf
    have hrw : d.access = .rw := by simpa [Instr.wellFormed, hd] using hwf
    exact ⟨_, rfl, by rw [exec, execSetParam, setParamEmission_of_rw hd hrw hf]; rfl⟩
  case getParam a =>
    obtain ⟨d, hd⟩ := admitted_iff.1 hwf
    cases h
    exact ⟨_, rfl, by rw [exec, execGetParam, getParamEmission_of_lookup hd]; rfl⟩
  case setLspdOpt e =>
    simp only [Instr.wellFormed, Bool.and_eq_true, decide_eq_true_eq] at hwf
    obtain ⟨rfl, -⟩ := hwf
    exact ⟨_, rfl, by rw [exec, execSetLspdOpt, setLspdOptEmission_one (eq_ok_of_toOption h)]; rfl⟩
  case run | move | goto | gotoDir | goUntil | releaseSw =>
    cases h
    refine ⟨_, rfl, congrArg Host.Outcome.next (commandPort_checked _ s ?_)⟩
    simpa [checkDir_eq_none, checkAct_eq_none, checkArg_eq_none, Instr.wellFormed, and_assoc] using hwf
  case goHome | goMark | softStop | hardStop | softHiz | hardHiz | resetPos | resetDevice | getStatus =>
    cases h
    exact ⟨_, rfl, rfl⟩
  all_goals cases h

/-- Every frame has its opcode byte (30_encoding.md R71). -/
theorem exists_cons_of_encode {cfg : Config} {i : Instr} {f : List Byte} (h : encode cfg i = some f) :
    ∃ b g, f = b :: g := by
  simp only [encode, wellFormed_of_encode h, if_true] at h
  cases i
  case setParam | setLspdOpt =>
    obtain ⟨d, -, rfl⟩ := encodeSetParam_ok (eq_ok_of_toOption h)
    exact ⟨_, _, rfl⟩
  all_goals cases h
  all_goals exact ⟨_, _, rfl⟩

/-! ### Completion: the result of the operation, from all the answers (60_exceptions.md R232) -/

theorem decodeParamResponse_of_length {cfg : Config} {a : Nat} {d : RegDesc} {bytes : List Byte}
    (hd : lookup cfg a = .ok d) (hlen : bytes.length = nbytes (regWidth cfg a)) :
    decodeParamResponse cfg a bytes = .ok (unbe bytes % 2 ^ regWidth cfg a) := by
  simp [decodeParamResponse, hd, hlen, regWidth_of_lookup hd, mask]

/-- Completion gives the result of the operation: the answers to the command part are dropped. -/
theorem finalResult_of_encode {cfg : Config} {i : Instr} {k : Kind} {f bytes : List Byte}
    (h : encode cfg i = some f) (hk : instrKind i = some k) (hlen : bytes.length = f.length) :
    finalResult cfg i bytes =
      some (completion cfg (instrResp i) k.tag (bytes.drop (f.length - nresp cfg (instrResp i)))) := by
  have hwf := wellFormed_of_encode h
  simp only [encode, hwf, if_true] at h
  cases i
  case getParam a =>
    obtain ⟨d, hd⟩ := admitted_iff.1 hwf
    cases h
    cases hk
    have hresp : (bytes.drop 1).length = nbytes (regWidth cfg a) := by simp [hlen, readFrame]
    simp only [finalResult, completion, instrResp, nresp, readFrame, List.length_cons, List.length_replicate,
      Nat.add_sub_cancel_left, decodeParamResponse_of_length hd hresp]
    exact (apply_ite some _ _ _).symm
  case getStatus => cases h; cases hk; rfl
  all_goals cases hk
  all_goals rfl

end Sys2Proof.Machine
end

section
/-!
PROOFS. A frame in flight whose bytes are all answered (60_exceptions.md R232, 70_reset_and_hazards.md R264): it
completes after one exchange for each byte.
-/

namespace Sys2Proof.Machine

open Sys2Proof.Safety

/-- The response bytes a frame holds once its remaining bytes are answered by `bytes` (10_state.md R26). -/
def receivedAll (e : Engine) (bytes : List Byte) : List Byte := e.rx ++ bytes.drop (e.ncmd - e.idx)

theorem receivedAll_nil (e : Engine) : receivedAll e [] = e.rx := by simp [receivedAll]

theorem receivedAll_cons (e : Engine) (r : Byte) (bytes : List Byte) :
    receivedAll e (r :: bytes) = receivedAll { e with idx := e.idx + 1, rx := received e r } bytes := by
  by_cases h : e.ncmd ≤ e.idx
  · simp [receivedAll, received, h, Nat.sub_eq_zero_of_le, Nat.le_succ_of_le]
  · have hsub : e.ncmd - e.idx = e.ncmd - (e.idx + 1) + 1 := by omega
    simp [receivedAll, received, h, hsub]

/-- A frame in flight has the bytes `g` left; the host waits for each of them and then does `rest`, and the
transport answers them by `bytes` and then `more`. -/
structure Awaits (tag : Tag) (rest : List HostEvent) (more : List (Option Byte)) (g bytes : List Byte)
    (s : State) : Prop where
  config : configOk s.cfg = true
  phase : s.engine.phase = .xfer
  tag_eq : s.engine.tag = some tag
  frame : s.engine.frame.drop s.engine.idx = g
  inbox : s.inbox = ticks g.length ++ rest
  answers : s.answers = bytes.map some ++ more

/-- The state once the bytes `g` that are left of the frame in flight have been answered by `bytes`. -/
def completed (tag : Tag) (rest : List HostEvent) (more : List (Option Byte)) (g bytes : List Byte)
    (s : State) : State :=
  { s with
    inbox := rest, answers := more, wire := s.wire ++ transactions g bytes,
    engine := emptied .idle (completion s.cfg s.engine.resp tag (receivedAll s.engine bytes)) }

theorem run_succ {M : Host.Core} {s t : M.State} (n : Nat) (h : M.step s = .next t) :
    M.run (n + 1) s = M.run n t := by
  simp [Host.Core.run, h]

/-- The byte at an index, the bytes after it and the length, by what is left from the index on. -/
theorem of_drop_eq_cons {l g : List Byte} {n : Nat} {b : Byte} (h : l.drop n = b :: g) :
    l[n]? = some b ∧ l.drop (n + 1) = g ∧ l.length = n + 1 + g.length := by
  have hlen := congrArg List.length h
  simp only [List.length_drop, List.length_cons] at hlen
  exact ⟨by rw [← List.head?_drop, h]; rfl, by rw [← List.tail_drop, h]; rfl, by omega⟩

section
variable {tag : Tag} {rest : List HostEvent} {more : List (Option Byte)} {b c r : Byte} {g bytes : List Byte}
  {s : State}

/-- The next of the bytes is exchanged and answered (60_exceptions.md R232, R236). -/
theorem Awaits.step_eq (h : Awaits tag rest more (b :: g) (r :: bytes) s) :
    step s = .next (advance tag r (exchange b (taken s))) := by
  obtain ⟨hb, -, -⟩ := of_drop_eq_cons h.frame
  rw [step_tick h.config h.inbox, engineTurn_xfer (s := taken s) h.phase,
    engineStep_next (s := taken s) hb h.tag_eq]
  simp [nextAnswer, h.answers, afterAnswer]

/-- The last of the bytes completes the frame. -/
theorem Awaits.advance_last (h : Awaits tag rest more [b] [r] s) :
    advance tag r (exchange b (taken s)) = completed tag rest more [b] [r] s := by
  obtain ⟨-, -, hlast⟩ := of_drop_eq_cons h.frame
  rw [Machine.advance_last (s := exchange b (taken s)) tag r hlast.symm]
  simp [completed, receivedAll_cons, receivedAll_nil, transactions, nextAnswer, h.inbox, h.answers, ticks]

/-- A byte before the last moves the index. -/
theorem Awaits.advance_more (h : Awaits tag rest more (b :: c :: g) (r :: bytes) s) :
    advance tag r (exchange b (taken s)) = { exchange b (taken s) with
      engine := { s.engine with idx := s.engine.idx + 1, rx := received s.engine r } } := by
  obtain ⟨-, -, hlen⟩ := of_drop_eq_cons h.frame
  exact Machine.advance_more (s := exchange b (taken s)) tag r (by simp [hlen])

theorem Awaits.next (h : Awaits tag rest more (b :: c :: g) (r :: bytes) s) :
    Awaits tag rest more (c :: g) bytes (advance tag r (exchange b (taken s))) := by
  obtain ⟨-, hrest, -⟩ := of_drop_eq_cons h.frame
  rw [h.advance_more]
  exact ⟨h.config, h.phase, h.tag_eq, hrest, by simp [h.inbox, ticks, List.replicate_succ], by simp [h.answers]⟩

theorem Awaits.completed_advance (h : Awaits tag rest more (b :: c :: g) (r :: bytes) s) :
    completed tag rest more (c :: g) bytes (advance tag r (exchange b (taken s))) =
      completed tag rest more (b :: c :: g) (r :: bytes) s := by
  rw [h.advance_more]
  simp [completed, receivedAll_cons, transactions, nextAnswer, h.answers]

end

/-- A frame in flight whose bytes are all answered completes after one exchange for each. -/
theorem Awaits.run {tag : Tag} {rest : List HostEvent} {more : List (Option Byte)} {b : Byte} {g bytes : List Byte}
    {s : State} (h : Awaits tag rest more (b :: g) bytes s) (hlen : bytes.length = (b :: g).length) :
    Host.Core.run core (b :: g).length s = .next (completed tag rest more (b :: g) bytes s) := by
  obtain ⟨r, bytes, rfl⟩ := List.exists_cons_of_length_eq_add_one hlen
  induction g generalizing s b r bytes with
  | nil =>
    obtain rfl : bytes = [] := by simpa using hlen
    rw [← h.advance_last]
    exact run_succ (M := core) 0 h.step_eq
  | cons c g ih =>
    obtain ⟨r', bytes, rfl⟩ := List.exists_cons_of_length_eq_add_one (Nat.succ.inj hlen)
    calc Host.Core.run core (b :: c :: g).length s
        = Host.Core.run core (c :: g).length (advance tag r (exchange b (taken s))) :=
          run_succ (M := core) _ h.step_eq
      _ = .next (completed tag rest more (c :: g) (r' :: bytes) (advance tag r (exchange b (taken s)))) :=
          ih r' bytes h.next (Nat.succ.inj hlen)
      _ = .next (completed tag rest more (b :: c :: g) (r :: r' :: bytes) s) := by rw [h.completed_advance]

/-- Settles O40: the request puts the frame `encode` gives in flight, the answers complete it, and completion gives
the operation's result. -/
theorem acceptedFrameRunsToCompletion : Obligations.AcceptedFrameRunsToCompletion := by
  intro s i f bytes rest more hcfg hphase henc hlen hinbox hanswers
  obtain ⟨k, hk, hexec⟩ := exec_of_encode (s := taken s) henc
  refine ⟨_, finalResult_of_encode henc hk hlen, ?_⟩
  have hstep : step s = .next (emit ⟨f, instrResp i, k.tag⟩ (taken s)) := by
    rw [step_request hcfg hinbox, decodePort_encodePort, hexec, commandPort_idle_ok (s := taken s) hphase]
  have hawaits : Awaits k.tag rest more f bytes (emit ⟨f, instrResp i, k.tag⟩ (taken s)) :=
    ⟨hcfg, rfl, rfl, rfl, by simp [hinbox], hanswers⟩
  obtain ⟨b, g, rfl⟩ := exists_cons_of_encode henc
  rw [Nat.add_comm, run_succ (M := core) _ hstep, hawaits.run hlen]
  rfl

end Sys2Proof.Machine
end

section
/-!
PROOFS. The encoding of the three request ports (30_encoding.md R90 to R92), the rows of the opcode table (R83, R84)
and the pseudo-instructions (R89).
-/

namespace Sys2Proof

open Sys2Proof.Machine

/-! ### The request ports -/

/-- Settles O6: `step_request`, with the event at the head taken. -/
theorem stepRunsDecodedRequest : Obligations.StepRunsDecodedRequest := by
  rintro s p _ rest hcfg hinbox rfl
  have htaken : taken s = { s with inbox := rest } := by simp [taken, hinbox]
  rw [step_request hcfg hinbox, htaken]

/-- A selector is read back from its 4 bits (30_encoding.md R90). -/
theorem selectorOf_selectorBits (c : Selector) : selectorOf (selectorBits c) = .ok c := by
  obtain ⟨side, quantity⟩ := c
  cases side <;> cases quantity <;> rfl

/-- The bits of a selector ask for that selector's operation (30_encoding.md R90). -/
theorem ask_selectorBits (c : Selector) (x : Double) (r : Nat) :
    (selectorOf (selectorBits c)).map (fun csel => decodePort (.converter csel x r)) = .ok (decodeConverter c x r) := by
  rw [selectorOf_selectorBits]
  rfl

/-- Bits that name no quantity are refused, whatever they ask for (30_encoding.md R90). -/
theorem ask_unassigned {csel : BitVec 4} (h : quantityOf (bits csel.toNat 2 0) = none) (f : Selector → Instr) :
    (selectorOf csel).map f = .error (.unassigned csel) := by
  simp [selectorOf, h, Except.map]

/-- Settles O8: an assigned converter selector asks as the bits of its side and quantity do; 7 and 15 name no
quantity; a decoder selector or a command record is read by its own case of the decoder. -/
theorem portSelectorsSpellOperations : Obligations.PortSelectorsSpellOperations := by
  refine ⟨fun x r => ?_, selectorOf_selectorBits, fun a b bs path => ⟨rfl, rfl, rfl, rfl⟩,
    fun reg value dir act enable => ⟨rfl, rfl, rfl, rfl, rfl, rfl, rfl, rfl, rfl, rfl, rfl, rfl, rfl, rfl, rfl, rfl,
      rfl, rfl⟩⟩
  have forward (q : Quantity) := ask_selectorBits ⟨.forward, q⟩ x r
  have reverse (q : Quantity) := ask_selectorBits ⟨.reverse, q⟩ x r
  exact ⟨forward .acceleration, reverse .acceleration, forward .deceleration, reverse .deceleration,
    forward .maximumSpeed, reverse .maximumSpeed, forward .minimumSpeed, reverse .minimumSpeed,
    forward .fullStepSpeed, reverse .fullStepSpeed, forward .intersectSpeed, reverse .intersectSpeed,
    forward .runSpeed, reverse .runSpeed, ask_unassigned rfl _, ask_unassigned rfl _⟩

/-! ### The opcode table -/

/-- The rows of spec/opcode_table.json for the command bytes: mask, match and kind. -/
def opcodeRows : List (Nat × Nat × Kind) :=
  [(0xE0, 0x00, .setParam), (0xE0, 0x20, .getParam), (0xFE, 0x40, .move), (0xFE, 0x50, .run),
   (0xFF, 0x60, .goto), (0xFE, 0x68, .gotoDir), (0xFF, 0x70, .goHome), (0xFF, 0x78, .goMark),
   (0xF6, 0x82, .goUntil), (0xF6, 0x92, .releaseSw), (0xFF, 0xA0, .softHiz), (0xFF, 0xA8, .hardHiz),
   (0xFF, 0xB0, .softStop), (0xFF, 0xB8, .hardStop), (0xFF, 0xC0, .resetDevice), (0xFF, 0xD0, .getStatus),
   (0xFF, 0xD8, .resetPos)]

/-- A byte matches a row: under the row's mask it is the row's match value. -/
def matchesRow (b : Nat) (r : Nat × Nat × Kind) : Bool := b &&& r.1 == r.2.1

/-- Two rows clash where both masks look: the match values differ in a bit that both masks keep. -/
def RowsClash (r r' : Nat × Nat × Kind) : Prop := r.2.1 &&& r'.1 ≠ r'.2.1 &&& r.1

/-- No number matches two rows that clash. -/
theorem RowsClash.not_both {r r' : Nat × Nat × Kind} (h : RowsClash r r') {b : Nat} (hr : matchesRow b r = true) :
    matchesRow b r' = false := by
  by_contra hr'
  simp only [matchesRow, Bool.not_eq_false, beq_iff_eq] at hr hr'
  have : r.2.1 &&& r'.1 = r'.2.1 &&& r.1 := by rw [← hr, ← hr', Nat.and_right_comm]
  exact h this

theorem opcodeRows_clash : opcodeRows.Pairwise RowsClash := by
  unfold opcodeRows RowsClash
  decide

/-- Of rows that clash in pairs, a number matches at most one. -/
theorem length_filter_matchesRow_le {rows : List (Nat × Nat × Kind)} (h : rows.Pairwise RowsClash) (b : Nat) :
    (rows.filter (matchesRow b)).length ≤ 1 := by
  induction h with
  | nil => simp
  | @cons r rows hr _ ih =>
    by_cases hb : matchesRow b r = true
    · have hrest : rows.filter (matchesRow b) = [] := by
        simpa using fun r' hr' => (hr r' hr').not_both hb
      simp [List.filter_cons_of_pos hb, hrest]
    · rwa [List.filter_cons_of_neg hb]

/-- The opcode map reads the kind of the row a byte matches, and nothing where it matches none
(30_encoding.md R83, R84). -/
theorem opFields_kind_eq_row : ∀ b < 256, (opFields (BitVec.ofNat 8 b)).map (fun f => f.kind) =
    (opcodeRows.find? (matchesRow b)).map (fun r => r.2.2) := by
  decide +kernel

/-- decodeCommand answers a command or E9 with the byte (44_decoders.md R206). -/
theorem decodeCommand_error {cfg : Config} {b : Byte} {e : Err} (h : decodeCommand cfg b = .error e) :
    e = .unknownCommand b := by
  unfold decodeCommand at h
  split at h
  · cases h; rfl
  · split at h
    · cases h
    · split at h <;> cases h
      rfl

theorem decodeCommand_beq_unknown (cfg : Config) (b : Byte) :
    (decodeCommand cfg b == .error (.unknownCommand b)) = !(decodeCommand cfg b).isOk := by
  cases h : decodeCommand cfg b with
  | ok c => rfl
  | error e =>
    rw [decodeCommand_error h]
    simp [Except.isOk, Except.toBool]

/-- With `SOURCE_TABLE`, 22 admitted REG bytes and 24 others are commands (30_encoding.md R83, R85). -/
theorem command_bytes_of_sourceTable :
    ((List.range 256).filter (fun b => (decodeCommand defaultConfig (BitVec.ofNat 8 b)).isOk)).length = 46 := by
  decide

/-- Settles O44: the rows clash in pairs, so a byte matches at most one; the bytes that are no commands are the
remaining ones, each of them E9. -/
theorem opcodeTableRowsDisjoint : Obligations.OpcodeTableRowsDisjoint := by
  refine ⟨fun b hb => ⟨length_filter_matchesRow_le opcodeRows_clash b, opFields_kind_eq_row b hb⟩,
    command_bytes_of_sourceTable, ?_⟩
  have hsplit := List.length_eq_length_filter_add (l := List.range 256)
    (fun b => (decodeCommand defaultConfig (BitVec.ofNat 8 b)).isOk)
  simp only [decodeCommand_beq_unknown]
  rw [List.length_range, command_bytes_of_sourceTable] at hsplit
  omega

/-! ### Pseudo-instructions -/

theorem writeRecord_of_regByName {cfg : Config} {n : RegName} {a : Nat} (h : regByName cfg n = some a) (v : Nat) :
    writeRecord cfg n v = some { op := .setParam, reg := a, value := v } := by
  simp [writeRecord, h]

theorem writeRecord_of_absent {cfg : Config} {n : RegName} (h : regByName cfg n = none) (v : Nat) :
    writeRecord cfg n v = none := by
  simp [writeRecord, h]

/-- SET_MIN_SPEED puts the bit `l` above the 12 bits of the speed (30_encoding.md R89). -/
theorem expandPseudo_setMinSpeed {cfg : Config} {a : Nat} (h : regByName cfg .minSpeed = some a) (x : Double)
    (l : Fin 2) : expandPseudo cfg (.setMinSpeed x l) =
      some { op := .setParam, reg := a, value := l.val * 0x1000 + minSpeedToReg cfg.roundMode x } :=
  writeRecord_of_regByName h _

/-- Settles O60: each register write goes to the address its name has in the table, whatever the rounding mode;
`SOURCE_TABLE` has no INT_SPD. -/
theorem pseudoInstructionsExpand : Obligations.PseudoInstructionsExpand := by
  intro mode x c d cfg big
  have hmin : regByName cfg .minSpeed = some 0x08 := rfl
  exact ⟨writeRecord_of_regByName rfl _, writeRecord_of_regByName rfl _, writeRecord_of_regByName rfl _,
    by simpa using expandPseudo_setMinSpeed hmin x 0, by simpa using expandPseudo_setMinSpeed hmin x 1,
    writeRecord_of_regByName rfl _, writeRecord_of_absent rfl _, writeRecord_of_regByName rfl _, rfl, rfl⟩

end Sys2Proof
end

section
/-!
PROOFS. The arithmetic of the converter: the value of a binary64 operand by its fields (00_scope.md R11; log 7), and the
forward and reverse schemes (40_converter.md R100 to R104, R115), each said once. `⌊q⌋₊` is the floor of `q`, and 0
for a negative `q`.
-/

namespace Sys2Proof

open Sys2Proof.Safety

/-! ### A binary64 operand by its fields (00_scope.md R11; log 7) -/

theorem doubleExp_eq (x : Double) : doubleExp x = x.toNat / 2 ^ 52 % 2 ^ 11 := rfl

theorem doubleFrac_eq (x : Double) : doubleFrac x = x.toNat % 2 ^ 52 := by simp [doubleFrac, bits]

theorem doubleSign_eq_zero_iff (x : Double) : doubleSign x = 0 ↔ ¬ x.toNat / 2 ^ 63 = 1 := by
  have hx : x.toNat < 2 ^ 64 := x.isLt
  simp only [doubleSign, bit]
  omega

theorem doubleValue_of_nan {x : Double} (he : doubleExp x = 2047) (hf : doubleFrac x ≠ 0) : doubleValue x = .nan := by
  simp [doubleValue, he, hf]

theorem doubleValue_of_infinity {x : Double} (he : doubleExp x = 2047) (hf : doubleFrac x = 0) :
    doubleValue x = if doubleSign x = 0 then .posInf else .negInf := by
  simp [doubleValue, he, hf]

theorem doubleValue_of_finite {x : Double} (he : doubleExp x ≠ 2047) :
    doubleValue x = .finite (if doubleSign x = 0 then doubleMagnitude (doubleExp x) (doubleFrac x)
      else -doubleMagnitude (doubleExp x) (doubleFrac x)) := by
  simp only [doubleValue, if_neg he, apply_ite DoubleValue.finite]

/-- Of the two truncated powers one is 1, so their quotient is the power of the difference. -/
theorem two_pow_sub_div_two_pow_sub (a b : Nat) :
    (2 : Rat) ^ (a - b) / 2 ^ (b - a) = 2 ^ ((a : Int) - b) := by
  rw [← zpow_natCast, ← zpow_natCast, ← zpow_sub₀ two_ne_zero]
  congr 1
  omega

theorem doubleMagnitude_eq (e f : Nat) : doubleMagnitude e f =
    if e = 0 then (f : Rat) * 2 ^ (-1074 : Int) else ((2 : Rat) ^ 52 + f) * 2 ^ ((e : Int) - 1075) := by
  unfold doubleMagnitude
  split
  · rw [Nat.cast_pow, Nat.cast_ofNat, zpow_neg, ← div_eq_mul_inv]
    rfl
  · have hpow := two_pow_sub_div_two_pow_sub e 1075
    push_cast at hpow ⊢
    rw [mul_div_assoc, hpow]
    norm_num

theorem abs_div_two_pow_lt {f n : Nat} (hf : f < 2 ^ 52) (hn : 62 ≤ n) :
    |(f : Rat) / ((2 ^ n : Nat) : Rat)| < 1 / 1024 := by
  have hpow : f * 1024 < 2 ^ n := lt_of_lt_of_le (by omega : f * 1024 < 2 ^ 62) (Nat.pow_le_pow_right two_pos hn)
  rw [abs_of_nonneg (by positivity), div_lt_div_iff₀ (by positivity) (by norm_num), one_mul]
  exact_mod_cast hpow

/-- A zero or a subnormal is below `2^-10` in magnitude; the seven scales need no better bound. -/
theorem doubleValue_of_subnormal {x : Double} (he : doubleExp x = 0) :
    ∃ q, doubleValue x = .finite q ∧ |q| < 1 / 1024 := by
  have hf : doubleFrac x < 2 ^ 52 := by rw [doubleFrac_eq]; omega
  refine ⟨_, doubleValue_of_finite (by omega), ?_⟩
  have hmagnitude : |doubleMagnitude 0 (doubleFrac x)| < 1 / 1024 := by
    rw [doubleMagnitude, if_pos rfl]
    exact abs_div_two_pow_lt hf (by norm_num)
  rw [he]
  split
  · exact hmagnitude
  · rwa [abs_neg]

/-! ### The order of binary64 values (40_converter.md R113) -/

theorem not_doubleLe_nan_left (v : DoubleValue) : ¬ doubleLe .nan v := by cases v <;> exact id

theorem doubleLe_posInf_left {v : DoubleValue} : doubleLe .posInf v ↔ v = .posInf := by
  cases v <;> simp [doubleLe]

theorem doubleLe_finite_left {p : Rat} {v : DoubleValue} :
    doubleLe (.finite p) v ↔ v = .posInf ∨ ∃ q, v = .finite q ∧ p ≤ q := by
  cases v <;> simp [doubleLe]

theorem doubleLe_finite_right {v : DoubleValue} {q : Rat} :
    doubleLe v (.finite q) ↔ v = .negInf ∨ ∃ p, v = .finite p ∧ p ≤ q := by
  cases v <;> simp [doubleLe]

/-! ### Rounding (00_scope.md R12; 40_converter.md R102) -/

/-- What rounding adds to a value that is not negative before it takes the floor. -/
def roundBias : RoundMode → Rat
  | .nearestHalfAway => 1 / 2
  | .truncate => 0

theorem roundBias_nonneg (mode : RoundMode) : 0 ≤ roundBias mode := by cases mode <;> norm_num [roundBias]

theorem roundBias_le_half (mode : RoundMode) : roundBias mode ≤ 1 / 2 := by cases mode <;> norm_num [roundBias]

theorem roundRat_of_nonneg (mode : RoundMode) {q : Rat} (h : 0 ≤ q) : roundRat mode q = ⌊q + roundBias mode⌋ := by
  cases mode <;> simp only [roundRat, roundBias, if_pos h, add_zero] <;> rfl

theorem roundRat_of_neg (mode : RoundMode) {q : Rat} (h : q < 0) : roundRat mode q = -⌊-q + roundBias mode⌋ := by
  cases mode <;> simp only [roundRat, roundBias, if_neg h.not_ge, add_zero] <;> rfl

/-- Where the rounded value is not negative it is the floor of the biased one; where it is, both are cut off at 0. -/
theorem toNat_roundRat (mode : RoundMode) (q : Rat) : (roundRat mode q).toNat = ⌊q + roundBias mode⌋₊ := by
  have hhalf := roundBias_le_half mode
  rcases le_or_gt 0 q with hq | hq
  · rw [roundRat_of_nonneg mode hq, Int.floor_toNat]
  · have hrounded : 0 ≤ ⌊-q + roundBias mode⌋ := Int.floor_nonneg.2 (by linarith [roundBias_nonneg mode])
    rw [roundRat_of_neg mode hq, Nat.floor_eq_zero.2 (by linarith), Int.toNat_of_nonpos (by omega)]

theorem floor_natCast_add_roundBias (mode : RoundMode) (n : Nat) : ⌊(n : Rat) + roundBias mode⌋₊ = n :=
  (Nat.floor_eq_iff (by linarith [roundBias_nonneg mode, n.cast_nonneg (α := Rat)])).2
    ⟨by linarith [roundBias_nonneg mode], by linarith [roundBias_le_half mode]⟩

/-! ### The forward scheme (40_converter.md R100, R103, R104) -/

theorem toNat_clampInt (z : Int) (n : Nat) : (clampInt z 0 n).toNat = min z.toNat n := by
  unfold clampInt
  split
  · omega
  · split <;> omega

section
variable {mode : RoundMode} {x y : Double} {K off p q : Rat} {w : Nat}

theorem convRat_eq (mode : RoundMode) (q K off : Rat) (w : Nat) :
    convRat mode q K off w = min ⌊q * K - off + roundBias mode⌋₊ (2 ^ w - 1) := by
  rw [convRat, toNat_clampInt, toNat_roundRat]
  rfl

theorem convRat_le (mode : RoundMode) (q K off : Rat) (w : Nat) : convRat mode q K off w ≤ 2 ^ w - 1 := by
  rw [convRat_eq]
  exact min_le_right _ _

theorem convRat_mono (hK : 0 ≤ K) (h : p ≤ q) : convRat mode p K off w ≤ convRat mode q K off w := by
  have hscaled : p * K ≤ q * K := mul_le_mul_of_nonneg_right h hK
  rw [convRat_eq, convRat_eq]
  exact min_le_min_right _ (Nat.floor_mono (by linarith))

/-- What rounds to 0 or below converts to 0. -/
theorem convRat_eq_zero (h : q * K - off + roundBias mode < 1) : convRat mode q K off w = 0 := by
  rw [convRat_eq, Nat.floor_eq_zero.2 h, Nat.zero_min]

theorem two_pow_sub_one_pos (hw : 0 < w) : 0 < 2 ^ w - 1 := Nat.sub_pos_of_lt (Nat.one_lt_two_pow hw.ne')

theorem convRat_eq_max_iff_le_roundRat (hw : 0 < w) :
    convRat mode q K off w = 2 ^ w - 1 ↔ (2 : Int) ^ w - 1 ≤ roundRat mode (q * K - off) := by
  have hpos := two_pow_sub_one_pos hw
  have hcast : (((2 ^ w - 1 : Nat)) : Int) = 2 ^ w - 1 := by simp
  rw [convRat_eq, ← toNat_roundRat, ← hcast]
  omega

theorem convRat_eq_max_iff (hw : 0 < w) :
    convRat mode q K off w = 2 ^ w - 1 ↔ ((2 ^ w - 1 : Nat) : Rat) ≤ q * K - off + roundBias mode := by
  rw [convRat_eq, min_eq_right_iff, Nat.le_floor_iff' (two_pow_sub_one_pos hw).ne']

theorem conv_of_nan (h : doubleValue x = .nan) : conv mode x K off w = 0 := by simp [conv, h]

theorem conv_of_posInf (h : doubleValue x = .posInf) : conv mode x K off w = 2 ^ w - 1 := by simp [conv, h, maxOf]

theorem conv_of_negInf (h : doubleValue x = .negInf) : conv mode x K off w = 0 := by simp [conv, h]

theorem conv_of_infinity (he : doubleExp x = 2047) (hf : doubleFrac x = 0) :
    conv mode x K off w = if doubleSign x = 0 then 2 ^ w - 1 else 0 := by
  have hvalue := doubleValue_of_infinity he hf
  split
  · next hsign => exact conv_of_posInf (by rw [hvalue, if_pos hsign])
  · next hsign => exact conv_of_negInf (by rw [hvalue, if_neg hsign])

theorem conv_of_finite (h : doubleValue x = .finite q) : conv mode x K off w = convRat mode q K off w := by
  simp [conv, h]

theorem conv_le (mode : RoundMode) (x : Double) (K off : Rat) (w : Nat) : conv mode x K off w ≤ 2 ^ w - 1 := by
  cases h : doubleValue x with
  | nan => simp [conv_of_nan h]
  | posInf => exact (conv_of_posInf h).le
  | negInf => simp [conv_of_negInf h]
  | finite q =>
    rw [conv_of_finite h]
    exact convRat_le mode q K off w

/-- 40_converter.md R112, for a width that is not 0. -/
theorem conv_eq_max_iff (hw : 0 < w) : conv mode x K off w = 2 ^ w - 1 ↔
    doubleValue x = .posInf ∨ ∃ q, doubleValue x = .finite q ∧ (2 : Int) ^ w - 1 ≤ roundRat mode (q * K - off) := by
  have hpos := two_pow_sub_one_pos hw
  cases h : doubleValue x with
  | nan => simp [conv_of_nan h, hpos.ne]
  | posInf => simp [conv_of_posInf h]
  | negInf => simp [conv_of_negInf h, hpos.ne]
  | finite q => simp [conv_of_finite h, convRat_eq_max_iff_le_roundRat hw]

/-- 40_converter.md R113, for a scale that is not negative. -/
theorem conv_mono (hK : 0 ≤ K) (h : doubleLe (doubleValue x) (doubleValue y)) :
    conv mode x K off w ≤ conv mode y K off w := by
  cases hx : doubleValue x with
  | nan => exact absurd (hx ▸ h) (not_doubleLe_nan_left _)
  | negInf => simp [conv_of_negInf hx]
  | posInf =>
    have hy := doubleLe_posInf_left.1 (hx ▸ h)
    rw [conv_of_posInf hx, conv_of_posInf hy]
  | finite p =>
    obtain hy | ⟨q, hy, hpq⟩ := doubleLe_finite_left.1 (hx ▸ h)
    · rw [conv_of_posInf hy]
      exact conv_le mode x K off w
    · rw [conv_of_finite hx, conv_of_finite hy]
      exact convRat_mono hK hpq

/-- 40_converter.md R114: a value at or above `p`, which already reaches `max_w`, gives `max_w`. -/
theorem conv_eq_max_of_doubleLe (hK : 0 ≤ K) (hp : convRat mode p K off w = 2 ^ w - 1)
    (h : doubleLe (.finite p) (doubleValue x)) : conv mode x K off w = 2 ^ w - 1 := by
  obtain hx | ⟨q, hx, hpq⟩ := doubleLe_finite_left.1 h
  · exact conv_of_posInf hx
  · rw [conv_of_finite hx]
    exact (convRat_le mode q K off w).antisymm (hp ▸ convRat_mono hK hpq)

/-- 40_converter.md R123: the offset and the scale cancel, and a natural number rounds to itself. -/
theorem convRat_rev {r : Nat} (hK : 0 < K) (hr : r ≤ 2 ^ w - 1) : convRat mode (rev r K off w) K off w = r := by
  have hmask : mask w r = r := Nat.mod_eq_of_lt (Nat.lt_of_le_pred (Nat.two_pow_pos w) hr)
  have hcancel : rev r K off w * K - off = r := by rw [rev, hmask, div_mul_cancel₀ _ hK.ne', add_sub_cancel_right]
  rw [convRat_eq, hcancel, floor_natCast_add_roundBias, min_eq_left hr]

theorem rev_zero_off (r : Nat) (K : Rat) (w : Nat) : rev r K 0 w = ((r % 2 ^ w : Nat) : Rat) / K := by
  simp [rev, mask]

end

end Sys2Proof
end

section
/-!
PROOFS. The converter port (40_converter.md R104 to R124): what each operation returns, and the laws of the forward
converters for the seven quantities.
-/

namespace Sys2Proof

open Sys2Proof.Machine Sys2Proof.Safety

/-! ### What an operation of the converter or decoder port writes (40_converter.md R124; 30_encoding.md R91) -/

theorem exec_converter {i : Instr} (hi : isConverter i = true) (s : State) :
    ∃ v, exec i s = .next (convReturn v s) := by
  cases i with
  | accToReg | decToReg | maxSpeedToReg | minSpeedToReg | fsSpdToReg | intSpdToReg | runSpeedToReg => exact ⟨_, rfl⟩
  | regToAcc | regToDec | regToMaxSpeed | regToMinSpeed | regToFsSpd | regToIntSpd | regToRunSpeed => exact ⟨_, rfl⟩
  | _ => cases hi

theorem exec_decoder {i : Instr} (hi : isDecoder i = true) (s : State) :
    ∃ v, exec i s = .next (decReturn v s) := by
  cases i with
  | decodeParam | decodeStatus | decodeCommand | decodeFrame => exact ⟨_, rfl⟩
  | _ => cases hi

theorem isCommand_iff (i : Instr) : IsCommand i ↔ isConverter i = false ∧ isDecoder i = false := by
  cases i <;> simp [IsCommand, instrKind, isConverter, isDecoder]

/-- Settles O18: `exec_converter` and `exec_decoder`. -/
theorem portCallsWriteOnlyTheirPort : Obligations.PortCallsWriteOnlyTheirPort :=
  ⟨fun _ s hi => exec_converter hi s, fun _ s hi => exec_decoder hi s, isCommand_iff⟩

/-! ### The values returned (40_converter.md R105 to R111, R116 to R122) -/

/-- The outcome of a reverse conversion whose offset is 0. -/
theorem next_rev_zero_off (s : State) (r : Nat) (K : Rat) (w : Nat) :
    (.next (convReturn (.phys (rev r K 0 w)) s) : Host.Outcome State Fault Refusal) =
      .next { s with convOut := some (.phys (((r % 2 ^ w : Nat) : Rat) / K)) } := by
  rw [rev_zero_off]
  rfl

/-- Settles O50: FS_SPD alone has an offset. -/
theorem reverseConvertersReturn : Obligations.ReverseConvertersReturn :=
  fun s r => ⟨next_rev_zero_off s r kAcc 12, next_rev_zero_off s r kAcc 12, next_rev_zero_off s r kMaxSpd 10,
    next_rev_zero_off s r kMinSpd 12, rfl, next_rev_zero_off s r kIntSpd 14, next_rev_zero_off s r kRunSpd 20⟩

/-- Settles O49: the fields give the value of the operand, `convRat_eq` the value of a finite one, and
`roundRat_of_nonneg` and `roundRat_of_neg` the rounding. -/
theorem forwardConvertersReturn : Obligations.ForwardConvertersReturn := by
  refine ⟨fun s x => ⟨rfl, rfl, rfl, rfl, rfl, rfl, rfl⟩, ?_, fun q => ⟨fun hq => ?_, fun hq => ?_⟩⟩
  · intro mode x K off w negative e f magnitude Q q
    have hvalue (he : e ≠ 2047) : doubleValue x = .finite Q := by
      rw [doubleValue_of_finite he, doubleMagnitude_eq, doubleFrac_eq]
      simp only [doubleSign_eq_zero_iff, ite_not, Q, negative, decide_eq_true_eq]
      rfl
    have hround (he : e ≠ 2047) (mode : RoundMode) :
        conv mode x K off w = min ⌊q + roundBias mode⌋.toNat (2 ^ w - 1) := by
      rw [conv_of_finite (hvalue he), convRat_eq, Int.floor_toNat]
    refine ⟨fun he hf => ?_, fun he hf => ?_, hvalue, fun he hq => ?_, fun he _ => hround he _, fun he _ => ?_⟩
    · exact conv_of_nan (doubleValue_of_nan he (by rwa [doubleFrac_eq]))
    · rw [conv_of_infinity he ((doubleFrac_eq x).trans hf)]
      simp only [doubleSign_eq_zero_iff, ite_not, negative, decide_eq_true_eq]
    · rw [conv_of_finite (hvalue he)]
      exact convRat_eq_zero (by linarith [roundBias_le_half mode])
    · simpa [roundBias] using hround he .truncate
  · exact ⟨roundRat_of_nonneg _ hq, by simpa [roundBias] using roundRat_of_nonneg .truncate hq⟩
  · exact ⟨roundRat_of_neg _ hq, by simpa [roundBias] using roundRat_of_neg .truncate hq⟩

theorem reg_le_of_exec {i : Instr} {s t : State} {n w : Nat} {mode : RoundMode} {x : Double} {K off : Rat}
    (hi : exec i s = .next (convReturn (.reg (conv mode x K off w)) s)) (ht : exec i s = .next t)
    (hn : t.convOut = some (.reg n)) : n ≤ 2 ^ w - 1 := by
  rw [hi] at ht
  cases ht
  cases hn
  exact conv_le mode x K off w

/-- Settles O52: `conv_le` for the value each operation leaves on the port. -/
theorem forwardResultsFitWidth : Obligations.ForwardResultsFitWidth := by
  intro i s t n _ ht hn
  refine ⟨?_, ?_, ?_, ?_, ?_, ?_, ?_⟩ <;> rintro x rfl
  · exact reg_le_of_exec (w := 12) rfl ht hn
  · exact reg_le_of_exec (w := 12) rfl ht hn
  · exact reg_le_of_exec (w := 10) rfl ht hn
  · exact reg_le_of_exec (w := 12) rfl ht hn
  · exact reg_le_of_exec (w := 10) rfl ht hn
  · exact reg_le_of_exec (w := 14) rfl ht hn
  · exact reg_le_of_exec (w := 20) rfl ht hn

/-! ### The laws, for each of the seven quantities (40_converter.md R103, R112 to R114, R123) -/

/-- What the laws need of a quantity; the bound on the scale is for the subnormals (R103). -/
structure QuantityOk (K off : Rat) (w : Nat) : Prop where
  scale_pos : 0 < K
  scale_le : K ≤ 100
  off_nonneg : 0 ≤ off
  width_pos : 0 < w

theorem quantityOk_of_mem {K off : Rat} {w : Nat} (h : (K, off, w) ∈ quantities) : QuantityOk K off w := by
  simp only [quantities, List.mem_cons, Prod.mk.injEq, List.not_mem_nil, or_false] at h
  rcases h with ⟨rfl, rfl, rfl⟩ | ⟨rfl, rfl, rfl⟩ | ⟨rfl, rfl, rfl⟩ | ⟨rfl, rfl, rfl⟩ | ⟨rfl, rfl, rfl⟩ |
    ⟨rfl, rfl, rfl⟩ | ⟨rfl, rfl, rfl⟩ <;> constructor <;> norm_num

/-- A zero or a subnormal is scaled to less than a half. -/
theorem conv_of_subnormal {mode : RoundMode} {K off : Rat} {w : Nat} {x : Double} (hquantity : QuantityOk K off w)
    (hx : doubleExp x = 0) : conv mode x K off w = 0 := by
  obtain ⟨q, hq, hsmall⟩ := doubleValue_of_subnormal hx
  have hscaled : q * K ≤ 1 / 1024 * 100 :=
    mul_le_mul ((le_abs_self q).trans hsmall.le) hquantity.scale_le hquantity.scale_pos.le (by norm_num)
  rw [conv_of_finite hq]
  exact convRat_eq_zero (by linarith [roundBias_le_half mode, hquantity.off_nonneg])

/-- Settles O51: both zeros have the exponent field of the subnormals. -/
theorem nonFiniteInputsDefined : Obligations.NonFiniteInputsDefined := by
  intro mode K off w x hmem
  have hsubnormal := conv_of_subnormal (mode := mode) (x := x) (quantityOk_of_mem hmem)
  refine ⟨conv_of_nan, conv_of_posInf, conv_of_negInf, fun hx => hsubnormal ?_, hsubnormal⟩
  obtain rfl | rfl := hx <;> decide

/-- Settles O53: `conv_eq_max_iff`, and for the two sentinels at width 12. -/
theorem sentinelReachedExactly : Obligations.SentinelReachedExactly := by
  refine ⟨fun mode K off w x hmem => conv_eq_max_iff (quantityOk_of_mem hmem).width_pos, fun mode x => ⟨?_, rfl⟩⟩
  simpa [accelToReg, kAcc] using conv_eq_max_iff (mode := mode) (x := x) (K := kAcc) (off := 0) (w := 12) (by norm_num)

/-- Settles O54: `conv_mono`, since every scale is positive. -/
theorem forwardConvertersMonotone : Obligations.ForwardConvertersMonotone :=
  fun _ _ _ _ _ _ hmem => conv_mono (quantityOk_of_mem hmem).scale_pos.le

theorem conv_eq_zero_of_doubleLe {mode : RoundMode} {K off : Rat} {w : Nat} {x : Double}
    (hquantity : QuantityOk K off w) (h : doubleLe (doubleValue x) (.finite 0)) : conv mode x K off w = 0 := by
  obtain hx | ⟨q, hx, hq⟩ := doubleLe_finite_right.1 h
  · exact conv_of_negInf hx
  · have hscaled : q * K ≤ 0 := mul_nonpos_of_nonpos_of_nonneg hq hquantity.scale_pos.le
    rw [conv_of_finite hx]
    exact convRat_eq_zero (by linarith [roundBias_le_half mode, hquantity.off_nonneg])

/-- The value that is scaled to where rounding first reaches `max_w` (40_converter.md R105 to R111). -/
def saturationPoint (mode : RoundMode) (K off : Rat) (w : Nat) : Rat :=
  (((2 ^ w - 1 : Nat) : Rat) + off - roundBias mode) / K

theorem QuantityOk.saturated {mode : RoundMode} {K off p : Rat} {w : Nat} {x : Double} (hquantity : QuantityOk K off w)
    (hp : saturationPoint mode K off w = p) (h : doubleLe (.finite p) (doubleValue x)) :
    conv mode x K off w = 2 ^ w - 1 := by
  have hscaled : p * K = ((2 ^ w - 1 : Nat) : Rat) + off - roundBias mode := by
    rw [← hp, saturationPoint, div_mul_cancel₀ _ hquantity.scale_pos.ne']
  have hmax : convRat mode p K off w = 2 ^ w - 1 :=
    (convRat_eq_max_iff hquantity.width_pos).2 (by rw [hscaled]; linarith)
  exact conv_eq_max_of_doubleLe hquantity.scale_pos.le hmax h

/-- Settles O55: the points of the rules are the saturation points of the seven quantities. -/
theorem forwardConvertersSaturate : Obligations.ForwardConvertersSaturate := by
  refine ⟨fun mode K off w x hmem => conv_eq_zero_of_doubleLe (quantityOk_of_mem hmem), fun x => ?_⟩
  have hacc : QuantityOk kAcc 0 12 := quantityOk_of_mem (by simp [quantities, kAcc])
  have hmaxSpd : QuantityOk kMaxSpd 0 10 := quantityOk_of_mem (by simp [quantities, kMaxSpd])
  have hminSpd : QuantityOk kMinSpd 0 12 := quantityOk_of_mem (by simp [quantities, kMinSpd])
  have hfsSpd : QuantityOk kFsSpd offFsSpd 10 := quantityOk_of_mem (by simp [quantities, kFsSpd, offFsSpd])
  have hintSpd : QuantityOk kIntSpd 0 14 := quantityOk_of_mem (by simp [quantities, kIntSpd])
  have hrunSpd : QuantityOk kRunSpd 0 20 := quantityOk_of_mem (by simp [quantities, kRunSpd])
  refine ⟨fun h => ⟨hacc.saturated ?_ h, hacc.saturated ?_ h⟩, fun h => ⟨hacc.saturated ?_ h, hacc.saturated ?_ h⟩,
    hmaxSpd.saturated ?_, hmaxSpd.saturated ?_, hminSpd.saturated ?_, hminSpd.saturated ?_, hfsSpd.saturated ?_,
    hfsSpd.saturated ?_, hintSpd.saturated ?_, hintSpd.saturated ?_, hrunSpd.saturated ?_, hrunSpd.saturated ?_⟩ <;>
    norm_num [saturationPoint, roundBias, kAcc, kMaxSpd, kMinSpd, kFsSpd, offFsSpd, kIntSpd, kRunSpd]

/-- Settles O56: `convRat_rev`, since every scale is positive. -/
theorem forwardUndoesReverse : Obligations.ForwardUndoesReverse :=
  fun _ _ _ _ _ hmem => convRat_rev (quantityOk_of_mem hmem).scale_pos

end Sys2Proof
end

section
/-!
PROOFS. The configuration family (41_config_commands.md R130 to R139): what SET_PARAM, GET_PARAM and SET_LSPD_OPT put in
flight or refuse, and what decodeParamResponse answers.
-/

namespace Sys2Proof

open Sys2Proof.Machine Sys2Proof.Safety

/-! ### The register lookup (41_config_commands.md R130) -/

theorem lookup_of_not_admitted {cfg : Config} {a : Nat} (h : admitted cfg a = false) :
    lookup cfg a = .error (.unknownRegister a) := by
  cases hlookup : lookup cfg a with
  | error e => rw [lookup_error hlookup]
  | ok d => simp [admitted_iff.2 ⟨d, hlookup⟩] at h

theorem lookup_of_no_descriptor {cfg : Config} {a : Nat} (h : ∀ d ∈ cfg.regTable, d.addr ≠ a) :
    lookup cfg a = .error (.unknownRegister a) := by
  cases hlookup : lookup cfg a with
  | error e => rw [lookup_error hlookup]
  | ok d =>
    obtain ⟨-, haddr, hmem⟩ := lookup_ok hlookup
    exact absurd haddr (h d hmem)

/-! ### The pure encoders (41_config_commands.md R131, R132) -/

/-- `be` of a register payload is the bytes written out (00_scope.md R9, R10). -/
theorem be_nbytes (w v : Nat) : be (nbytes w) v = regBytes w v := by
  unfold nbytes regBytes
  split
  · exact be_one v
  · split
    · exact be_two v
    · exact be_three v

@[simp] theorem length_regBytes (w v : Nat) : (regBytes w v).length = nbytes w := by
  rw [← be_nbytes, length_be]

theorem encodeSetParam_of_lookup {cfg : Config} {a : Nat} {d : RegDesc} (hd : lookup cfg a = .ok d) (v : Nat) :
    encodeSetParam cfg a v = .ok (BitVec.ofNat 8 a :: regBytes d.width (v % 2 ^ d.width)) := by
  simp [encodeSetParam, hd, be_nbytes, byteOf, mask]

/-- The address does not overlap the bit of `0x20` (30_encoding.md R73). -/
theorem or_address {a : Nat} (ha : a ≤ 31) : 0x20 ||| a = 32 + a :=
  (Nat.two_pow_add_eq_or_of_lt (i := 5) (by omega : a < 2 ^ 5) 1).symm

/-! ### The command port in IDLE (60_exceptions.md R230, R231) -/

section
variable {s : State} (hidle : s.engine.phase = .idle)
include hidle

theorem commandPort_idle_refusedWith (e : Err) : commandPort (.error e) s = refusedWith e s :=
  commandPort_idle_error hidle e

theorem commandPort_idle_inFlight (em : Emission) :
    commandPort (.ok em) s = inFlight em.frame (em.frame.length - nresp s.cfg em.resp) em.resp em.tag s :=
  commandPort_idle_ok hidle em

/-- A register write is in flight with nothing but a command part. -/
theorem commandPort_idle_regWrite (a w v : Nat) (tag : Tag) :
    commandPort (.ok ⟨BitVec.ofNat 8 a :: regBytes w v, .none, tag⟩) s =
      inFlight (BitVec.ofNat 8 a :: regBytes w v) (1 + nbytes w) .none tag s := by
  rw [commandPort_idle_inFlight hidle]
  simp [nresp, Nat.add_comm]

end

/-! ### SET_PARAM and GET_PARAM (41_config_commands.md R131, R132, R139) -/

theorem exec_setParam (a v : Nat) (s : State) :
    exec (.setParam a v) s = .next (commandPort (setParamEmission s.cfg a v) s) := rfl

theorem exec_getParam (a : Nat) (s : State) :
    exec (.getParam a) s = .next (commandPort (getParamEmission s.cfg a) s) := rfl

theorem setParamEmission_of_ro {cfg : Config} {a : Nat} {d : RegDesc} (hd : lookup cfg a = .ok d)
    (hro : d.access = .ro) (v : Nat) : setParamEmission cfg a v = .error (.readOnlyRegister a) := by
  simp [setParamEmission, hd, hro]

theorem sourceTable_readOnly : ∀ d ∈ sourceTable, d.access = .ro → d.addr = 0x04 ∨ d.addr = 0x19 := by decide

/-- Settles O12: E2 comes before the frame, which the pure encoder gives without asking the access mode. -/
theorem readOnlyRegisterNotWritten : Obligations.ReadOnlyRegisterNotWritten := by
  refine ⟨fun s a v d hidle hd hro => ⟨?_, encodeSetParam_of_lookup hd v⟩, fun a => ⟨?_, ?_⟩⟩
  · rw [exec_setParam, setParamEmission_of_ro hd hro, commandPort_idle_refusedWith hidle]
  · rintro ⟨d, hd, hro⟩
    obtain ⟨-, rfl, hmem⟩ := lookup_ok hd
    exact sourceTable_readOnly d hmem hro
  · rintro (rfl | rfl)
    · exact ⟨_, rfl, rfl⟩
    · exact ⟨_, rfl, rfl⟩

/-- Settles O19: the frame of the pure encoder is in flight. -/
theorem setParamFramesMaskedValue : Obligations.SetParamFramesMaskedValue := by
  intro s a v d hidle hd hrw
  rw [exec_setParam, setParamEmission_of_rw hd hrw (encodeSetParam_of_lookup hd v), commandPort_idle_regWrite hidle]
  rfl

/-- Settles O20: the response bytes are the frame's bytes after the opcode. -/
theorem getParamFramesFillers : Obligations.GetParamFramesFillers := by
  intro s a d hidle hd
  obtain ⟨ha, -, -⟩ := lookup_ok hd
  rw [exec_getParam, getParamEmission_of_lookup hd, commandPort_idle_inFlight hidle]
  simp [readFrame, nresp, regWidth_of_lookup hd, byteOf, or_address ha, Kind.tag, Kind.family]

/-! ### SET_LSPD_OPT (41_config_commands.md R134) -/

theorem exec_setLspdOpt (e : Nat) (s : State) :
    exec (.setLspdOpt e) s = .next (commandPort (setLspdOptEmission s.cfg e) s) := rfl

theorem setLspdOptEmission_of_ne_one {cfg : Config} {d : RegDesc} {e : Nat} (hd : lookup cfg minSpeedAddr = .ok d)
    (he : e ≠ 1) : setLspdOptEmission cfg e = .error (.badEnum e) := by
  simp [setLspdOptEmission, encodeSetParam_of_lookup hd, checked, firstErr, checkEnable, he]

theorem setLspdOptEmission_of_no_minSpeed {cfg : Config} {err : Err} (h : lookup cfg minSpeedAddr = .error err)
    (e : Nat) : setLspdOptEmission cfg e = .error err := by
  simp [setLspdOptEmission, encodeSetParam, h]

/-- With enable 1 the frame of SET_PARAM MIN_SPEED 0x1000 is in flight, whatever the register's access mode. -/
theorem exec_setLspdOpt_one {s : State} {d : RegDesc} (hidle : s.engine.phase = .idle)
    (hd : lookup s.cfg minSpeedAddr = .ok d) :
    exec (.setLspdOpt 1) s =
      .next (inFlight (0x08 :: regBytes d.width (0x1000 % 2 ^ d.width)) (1 + nbytes d.width) .none
        ⟨.config, .setParam⟩ s) := by
  rw [exec_setLspdOpt, setLspdOptEmission_one (encodeSetParam_of_lookup hd _), commandPort_idle_regWrite hidle]
  rfl

/-- Settles O21: `exec_setLspdOpt_one` and the two checks before it. -/
theorem setLspdOptFrames : Obligations.SetLspdOptFrames := by
  refine fun s e hidle => ⟨?_, ?_, ?_, ?_⟩
  · rintro d rfl hd
    exact exec_setLspdOpt_one hidle hd
  · rintro d rfl hd hwidth
    rw [exec_setLspdOpt_one hidle hd, hwidth]
    rfl
  · intro he hadmitted
    obtain ⟨d, hd⟩ := admitted_iff.1 hadmitted
    rw [exec_setLspdOpt, setLspdOptEmission_of_ne_one hd he, commandPort_idle_refusedWith hidle]
  · intro _ habsent
    have hd : lookup s.cfg minSpeedAddr = .error (.unknownRegister 0x08) := lookup_of_no_descriptor habsent
    rw [exec_setLspdOpt, setLspdOptEmission_of_no_minSpeed hd, commandPort_idle_refusedWith hidle]

/-! ### decodeParamResponse (41_config_commands.md R135, R136) -/

theorem exec_decodeParam (a : Nat) (bytes : List Byte) (s : State) :
    exec (.decodeParam a bytes) s =
      .next { s with decOut := some (decResult .param (decodeParamResponse s.cfg a bytes)) } := rfl

section
variable {cfg : Config} {a : Nat} {bytes : List Byte}

theorem decodeParamResponse_of_lookup {d : RegDesc} (hd : lookup cfg a = .ok d) (hlen : bytes.length = nbytes d.width) :
    decodeParamResponse cfg a bytes = .ok (unbe bytes % 2 ^ d.width) := by
  rw [← regWidth_of_lookup hd] at hlen ⊢
  exact decodeParamResponse_of_length hd hlen

theorem decodeParamResponse_of_bad_length {d : RegDesc} (hd : lookup cfg a = .ok d)
    (hlen : bytes.length ≠ nbytes d.width) :
    decodeParamResponse cfg a bytes = .error (.responseLength bytes.length) := by
  simp [decodeParamResponse, hd, hlen]

theorem decodeParamResponse_of_lookup_error {e : Err} (h : lookup cfg a = .error e) :
    decodeParamResponse cfg a bytes = .error e := by
  simp [decodeParamResponse, h]

end

/-- Settles O46: one clause for each outcome of decodeParamResponse. -/
theorem decodeParamAnswers : Obligations.DecodeParamAnswers := by
  refine fun s a bytes => ⟨fun d hd hlen => ?_, fun d hd hlen => ?_, fun hadmitted => ?_⟩
  · rw [exec_decodeParam, decodeParamResponse_of_lookup hd hlen]
    rfl
  · rw [exec_decodeParam, decodeParamResponse_of_bad_length hd hlen]
    rfl
  · rw [exec_decodeParam, decodeParamResponse_of_lookup_error (lookup_of_not_admitted hadmitted)]
    rfl

/-- The masked value fits the payload of a well-formed register, so `unbe` undoes `be` (00_scope.md R10). -/
theorem unbe_regBytes_mod {w : Nat} (hw : w ≤ 22) (v : Nat) : unbe (regBytes w (v % 2 ^ w)) = v % 2 ^ w := by
  rw [← be_nbytes]
  exact unbe_be (lt_pow_nbytes (by omega) (mask_lt w v))

/-- Settles O42: the payload has the response's length, and reading it back gives the masked value. -/
theorem responseRoundTrip : Obligations.ResponseRoundTrip := by
  intro cfg a v d hcfg hd
  obtain ⟨-, hw⟩ := lookup_width hcfg hd
  refine ⟨_, encodeSetParam_of_lookup hd v, ?_⟩
  rw [List.drop_one, List.tail_cons, decodeParamResponse_of_lookup hd (length_regBytes _ _), unbe_regBytes_mod hw,
    Nat.mod_mod]

end Sys2Proof
end

section
/-!
PROOFS. The motion family and the commands of one byte (42_motion_commands.md R150 to R158; 43_stop_reset_status.md R180
to R185): the operand checks in their order, and what each command puts in flight or is refused with in IDLE.
-/

namespace Sys2Proof

open Sys2Proof.Machine Sys2Proof.Safety

/-! ### Operand checks that fail, and the first of a list (42_motion_commands.md R150; 60_exceptions.md R229) -/

theorem checkDir_of_gt {d : Nat} (hd : d > 1) : checkDir d = some (.badEnum d) := if_pos hd

theorem checkAct_of_gt {c : Nat} (hc : c > 1) : checkAct c = some (.badEnum c) := if_pos hc

theorem checkArg_of_ge {v w : Nat} (hv : v ≥ 2 ^ w) : checkArg v w = some (.argRange v) := if_pos hv

section
variable {α : Type} {c : Option Err} {cs : List (Option Err)} {x : α}

theorem checked_cons_of_pass (h : c = none) : checked (c :: cs) x = checked cs x := by
  subst h
  rfl

theorem checked_cons_of_fail {e : Err} (h : c = some e) : checked (c :: cs) x = .error e := by
  subst h
  rfl

end

/-! ### Opcode bytes and payloads (30_encoding.md R74, R75, R80) -/

/-- The opcode of format DIR, by its direction code. -/
theorem dirOp_of_le {d : Nat} (base : Nat) (hd : d ≤ 1) :
    byteOf (base ||| d) = if d = 1 then byteOf (base ||| 1) else byteOf (base ||| 0) := by
  obtain rfl | rfl := Nat.le_one_iff_eq_zero_or_eq_one.1 hd <;> rfl

/-- The opcode of format ACTDIR, by its action code and then its direction code. -/
theorem actDirOp_of_le {c d : Nat} (base : Nat) (hc : c ≤ 1) (hd : d ≤ 1) :
    actDirOp base c d =
      if c = 1 then (if d = 1 then actDirOp base 1 1 else actDirOp base 1 0)
      else (if d = 1 then actDirOp base 0 1 else actDirOp base 0 0) := by
  obtain rfl | rfl := Nat.le_one_iff_eq_zero_or_eq_one.1 hc <;>
    obtain rfl | rfl := Nat.le_one_iff_eq_zero_or_eq_one.1 hd <;> rfl

theorem be_three_eq_bytes3 (v : Nat) : be 3 v = bytes3 v := be_three v

/-! ### A frame without a response (60_exceptions.md R231) -/

/-- In IDLE the port takes a frame without a response, all of it command part. -/
theorem commandPort_idle_noResponse {s : State} (hidle : s.engine.phase = .idle) (frame : List Byte) (tag : Tag) :
    commandPort (.ok ⟨frame, .none, tag⟩) s = inFlight frame frame.length .none tag s :=
  commandPort_idle_inFlight hidle _

/-- A motion command in IDLE whose checks pass. -/
theorem commandPort_idle_motion {s : State} (hidle : s.engine.phase = .idle) {cs : List (Option Err)}
    (h : ∀ c ∈ cs, c = none) (k : Kind) (frame : List Byte) :
    commandPort (checked cs (motionEmission k frame)) s = inFlight frame frame.length .none k.tag s := by
  rw [checked_of_pass h]
  exact commandPort_idle_noResponse hidle frame k.tag

/-! ### RUN, MOVE and GOTO_DIR: format DIR with an argument of `w` bits (42_motion_commands.md R151, R152, R154) -/

/-- In IDLE a command that checks a direction and then an argument is refused with E3, refused with E4, or in flight. -/
theorem exec_dirFrame {i : Instr} {s : State} (hidle : s.engine.phase = .idle) (k : Kind) (base d v w : Nat)
    (hi : exec i s =
      .next (commandPort (checked [checkDir d, checkArg v w] (motionEmission k (dirFrame base d v))) s)) :
    (d ≤ 1 → v < 2 ^ w → exec i s =
      .next (inFlight ((if d = 1 then byteOf (base ||| 1) else byteOf (base ||| 0)) :: bytes3 v) 4 .none k.tag s)) ∧
    (d > 1 → exec i s = .next (refusedWith (.badEnum d) s)) ∧
    (d ≤ 1 → v ≥ 2 ^ w → exec i s = .next (refusedWith (.argRange v) s)) := by
  refine ⟨fun hd hv => ?_, fun hd => ?_, fun hd hv => ?_⟩
  · have hpass : ∀ c ∈ [checkDir d, checkArg v w], c = none := by simp [checkDir_eq_none, checkArg_eq_none, hd, hv]
    rw [hi, commandPort_idle_motion hidle hpass, dirFrame, dirOp_of_le base hd, be_three_eq_bytes3]
    rfl
  · rw [hi, checked_cons_of_fail (checkDir_of_gt hd), commandPort_idle_refusedWith hidle]
  · rw [hi, checked_cons_of_pass (checkDir_eq_none.2 hd), checked_cons_of_fail (checkArg_of_ge hv),
      commandPort_idle_refusedWith hidle]

/-- Settles O22: format DIR with an argument of 20 bits. -/
theorem runFrames : Obligations.RunFrames :=
  fun _ d v hidle => exec_dirFrame hidle .run 0x50 d v 20 rfl

/-- Settles O23: format DIR with an argument of 22 bits. -/
theorem moveFrames : Obligations.MoveFrames :=
  fun _ d n hidle => exec_dirFrame hidle .move 0x40 d n 22 rfl

/-- Settles O25: format DIR with an argument of 22 bits. -/
theorem gotoDirFrames : Obligations.GotoDirFrames :=
  fun _ d p hidle => exec_dirFrame hidle .gotoDir 0x68 d p 22 rfl

/-! ### GOTO (42_motion_commands.md R153) -/

theorem exec_goto (p : Nat) (s : State) :
    exec (.goto p) s = .next (commandPort (checked [checkArg p 22] (motionEmission .goto (0x60 :: be 3 p))) s) := rfl

/-- Settles O24: the argument's check is the only one, and the record's other fields are not read. -/
theorem gotoFrames : Obligations.GotoFrames := by
  refine fun s p hidle => ⟨fun hp => ?_, fun hp => ?_, fun _ _ _ _ => rfl⟩
  · have hpass : ∀ c ∈ [checkArg p 22], c = none := by simpa [checkArg_eq_none] using hp
    rw [exec_goto, commandPort_idle_motion hidle hpass, be_three_eq_bytes3]
    rfl
  · rw [exec_goto, checked_cons_of_fail (checkArg_of_ge hp), commandPort_idle_refusedWith hidle]

/-! ### GO_UNTIL and RELEASE_SW: format ACTDIR (42_motion_commands.md R155, R156) -/

/-- In IDLE a command that checks an action and then a direction before the checks `cs` is refused with E3 for the
first of the two codes that is undefined. -/
theorem commandPort_idle_badActDir {s : State} (hidle : s.engine.phase = .idle) (c d : Nat) (cs : List (Option Err))
    (em : Emission) :
    (c > 1 → commandPort (checked (checkAct c :: checkDir d :: cs) em) s = refusedWith (.badEnum c) s) ∧
    (c ≤ 1 → d > 1 → commandPort (checked (checkAct c :: checkDir d :: cs) em) s = refusedWith (.badEnum d) s) := by
  refine ⟨fun hc => ?_, fun hc hd => ?_⟩
  · rw [checked_cons_of_fail (checkAct_of_gt hc), commandPort_idle_refusedWith hidle]
  · rw [checked_cons_of_pass (checkAct_eq_none.2 hc), checked_cons_of_fail (checkDir_of_gt hd),
      commandPort_idle_refusedWith hidle]

theorem exec_goUntil (c d v : Nat) (s : State) :
    exec (.goUntil c d v) s = .next (commandPort (checked [checkAct c, checkDir d, checkArg v 20]
      (motionEmission .goUntil (actDirOp 0x82 c d :: be 3 v))) s) := rfl

theorem exec_releaseSw (c d : Nat) (s : State) :
    exec (.releaseSw c d) s = .next (commandPort (checked [checkAct c, checkDir d]
      (motionEmission .releaseSw [actDirOp 0x92 c d])) s) := rfl

/-- Settles O26: the two codes are checked first, then the argument of 20 bits. -/
theorem goUntilFrames : Obligations.GoUntilFrames := by
  intro s c d v hidle
  obtain ⟨hbadAct, hbadDir⟩ := commandPort_idle_badActDir hidle c d [checkArg v 20]
    (motionEmission .goUntil (actDirOp 0x82 c d :: be 3 v))
  refine ⟨fun hc hd hv => ?_, fun hc => ?_, fun hc hd => ?_, fun hc hd hv => ?_⟩
  · have hpass : ∀ e ∈ [checkAct c, checkDir d, checkArg v 20], e = none := by
      simpa [checkAct_eq_none, checkDir_eq_none, checkArg_eq_none, hc, hd] using hv
    rw [exec_goUntil, commandPort_idle_motion hidle hpass, actDirOp_of_le 0x82 hc hd, be_three_eq_bytes3]
    rfl
  · rw [exec_goUntil, hbadAct hc]
  · rw [exec_goUntil, hbadDir hc hd]
  · rw [exec_goUntil, checked_cons_of_pass (checkAct_eq_none.2 hc), checked_cons_of_pass (checkDir_eq_none.2 hd),
      checked_cons_of_fail (checkArg_of_ge hv), commandPort_idle_refusedWith hidle]

/-- Settles O27: the two codes are the only checks, and the opcode is the whole frame. -/
theorem releaseSwFrames : Obligations.ReleaseSwFrames := by
  intro s c d hidle
  obtain ⟨hbadAct, hbadDir⟩ := commandPort_idle_badActDir hidle c d []
    (motionEmission .releaseSw [actDirOp 0x92 c d])
  refine ⟨fun hc hd => ?_, fun hc => ?_, fun hc hd => ?_⟩
  · have hpass : ∀ e ∈ [checkAct c, checkDir d], e = none := by simp [checkAct_eq_none, checkDir_eq_none, hc, hd]
    rw [exec_releaseSw, commandPort_idle_motion hidle hpass, actDirOp_of_le 0x92 hc hd]
    rfl
  · rw [exec_releaseSw, hbadAct hc]
  · rw [exec_releaseSw, hbadDir hc hd]

/-! ### Commands of one byte (42_motion_commands.md R157, R158; 43_stop_reset_status.md R180 to R185) -/

/-- Settles O28: a one-byte frame without a response, with the opcode and the tag of each kind. -/
theorem oneByteCommandsFrame : Obligations.OneByteCommandsFrame := by
  intro s hidle
  have sends (k : Kind) (op : Byte) : (.next (commandPort (.ok ⟨[op], .none, k.tag⟩) s) :
      Host.Outcome State Fault Refusal) = .next (inFlight [op] 1 .none k.tag s) :=
    congrArg Host.Outcome.next (commandPort_idle_noResponse hidle [op] k.tag)
  exact ⟨sends .goHome 0x70, sends .goMark 0x78, sends .softStop 0xB0, sends .hardStop 0xB8, sends .softHiz 0xA0,
    sends .hardHiz 0xA8, sends .resetPos 0xD8, sends .resetDevice 0xC0⟩

end Sys2Proof
end

section
/-!
PROOFS. The status family (43_stop_reset_status.md R186 to R189): the clearing read, the two paths of a status word, the
answered bytes that decide nothing but `res`, and decodeStatus.
-/

namespace Sys2Proof

open Sys2Proof.Machine Sys2Proof.Safety

/-! ### decodeStatus (43_stop_reset_status.md R187) -/

theorem unbe_pair (b0 b1 : Byte) : unbe [b0, b1] = b0.toNat * 256 + b1.toNat := by simp [unbe]

theorem exec_decodeStatus (bytes : List Byte) (path : StatusPath) (s : State) :
    exec (.decodeStatus bytes path) s =
      .next { s with decOut := some (decResult .status (decodeStatus s.cfg bytes path)) } := rfl

theorem decodeStatus_pair (cfg : Config) (b0 b1 : Byte) (path : StatusPath) :
    decodeStatus cfg [b0, b1] path = .ok (statusFields cfg.statusLayout path (b0.toNat * 256 + b1.toNat)) := by
  simp [decodeStatus, unbe_pair]

theorem decodeStatus_of_bad_length {bytes : List Byte} (hlen : bytes.length ≠ 2) (cfg : Config) (path : StatusPath) :
    decodeStatus cfg bytes path = .error (.responseLength bytes.length) := if_neg hlen

/-- The motion states by their codes (10_state.md R40). -/
theorem motStateOf_eq (n : Nat) : motStateOf n =
    if n = 0 then .stopped else if n = 1 then .accelerating else if n = 2 then .decelerating else .constantSpeed :=
  match n with
  | 0 | 1 | 2 => rfl
  | n + 3 => by simp [motStateOf]

/-- Settles O47: the default layout places each flag at its bit, and the motion state at bits 6:5. -/
theorem decodeStatusAnswers : Obligations.DecodeStatusAnswers := by
  refine fun s bytes path => ⟨?_, fun hlen => ?_⟩
  · rintro b0 b1 rfl hlayout
    rw [exec_decodeStatus, decodeStatus_pair, hlayout]
    simp [decResult, statusFields, defaultLayout, bit, bits, motStateOf_eq]
  · rw [exec_decodeStatus, decodeStatus_of_bad_length hlen]
    rfl

/-! ### GET_STATUS (43_stop_reset_status.md R186) -/

theorem exec_getStatus_idle {s : State} (hidle : s.engine.phase = .idle) :
    exec .getStatus s =
      .next (inFlight [0xD0, s.cfg.filler, s.cfg.filler] 1 .status ⟨.status, .getStatus⟩ s) :=
  congrArg Host.Outcome.next (commandPort_idle_inFlight hidle _)

/-- In XFER, where the host does nothing, an answered exchange advances the frame (60_exceptions.md R232). -/
theorem step_exchanges {s : State} {b r : Byte} {tag : Tag} {more : List (Option Byte)} (hcfg : configOk s.cfg = true)
    (hinbox : s.inbox = []) (hphase : s.engine.phase = .xfer) (hb : s.engine.frame[s.engine.idx]? = some b)
    (htag : s.engine.tag = some tag) (hanswers : s.answers = some r :: more) :
    step s = .next (advance tag r (exchange b s)) := by
  have hanswer : nextAnswer s = some r := by simp [nextAnswer, hanswers]
  rw [step_nil hcfg hinbox, engineTurn_xfer hphase, engineStep_next hb htag, hanswer]
  rfl

/-- Settles O29: the request, then one exchange for each byte of the frame; the first answer is discarded. -/
theorem getStatusFrames : Obligations.GetStatusFrames := by
  refine ⟨fun s => exec_getStatus_idle, ?_⟩
  rintro ⟨cfg, engine, _, _, wire, convOut, decOut⟩ r b0 b1 more hcfg hidle rfl rfl
  have requested := (step_request hcfg rfl).trans (exec_getStatus_idle (s := taken _) hidle)
  refine Eq.trans (run_succ (M := core) 3 requested) ?_
  refine Eq.trans (run_succ (M := core) 2 (step_exchanges hcfg rfl rfl rfl rfl rfl)) ?_
  refine Eq.trans (run_succ (M := core) 1 (step_exchanges hcfg rfl rfl rfl rfl rfl)) ?_
  refine Eq.trans (run_succ (M := core) 0 (step_exchanges hcfg rfl rfl rfl rfl rfl)) ?_
  -- the wire has grown by one exchange after the other
  rw [← unbe_pair, List.append_cons, List.append_cons]
  rfl

/-! ### The command a frame in flight belongs to (10_state.md R25 to R28) -/

theorem kind_of_respOf_eq_status {c : Cmd} (h : respOf c = .status) : c.kind = .getStatus := by
  unfold respOf at h
  split at h
  · cases h
  · assumption
  · cases h

theorem kind_of_respOf_eq_param {c : Cmd} {a : Nat} (h : respOf c = .param a) :
    c.kind = .getParam ∧ c.a.getD 0 = a := by
  unfold respOf at h
  split at h
  · next hk => cases h; exact ⟨hk, rfl⟩
  · cases h
  · cases h

/-- A decoded GET_PARAM names an admitted register (44_decoders.md R202). -/
theorem lookup_of_respOf_eq_param {cfg : Config} {op : Byte} {c : Cmd} {a : Nat} (hc : decodeCommand cfg op = .ok c)
    (h : respOf c = .param a) : ∃ d, lookup cfg a = .ok d := by
  obtain ⟨hkind, rfl⟩ := kind_of_respOf_eq_param h
  obtain ⟨f, w, hf, rfl, -⟩ := decodeCommand_ok hc
  obtain ⟨a, ha⟩ := opFields_getParam_names_register hf hkind
  cases hd : lookup cfg a with
  | ok d => exact ⟨d, by simpa [cmdOf, ha] using hd⟩
  | error e => simp [decodeCommand, hf, ha, hd] at hc

/-- A frame in flight is that of one command, whose tag, response and lengths the record holds. -/
theorem command_of_inv {s : State} (hinv : Inv s) (hphase : s.engine.phase = .xfer) :
    s.engine.idx < s.engine.frame.length ∧ s.engine.rx.length = s.engine.idx - s.engine.ncmd ∧
      ∃ op c, decodeCommand s.cfg op = .ok c ∧ s.engine.tag = some c.kind.tag ∧ s.engine.resp = respOf c ∧
        s.engine.frame.length = s.engine.ncmd + c.nresp := by
  obtain ⟨-, heng⟩ := hinv
  rw [engineOk_xfer hphase, flightOk_iff, frameOk_iff] at heng
  obtain ⟨-, -, -, hidx, hrx, -, op, -, c, -, hc, htag, hncmd, hlen, hresp, -⟩ := heng
  exact ⟨hidx, hrx, op, c, hc, htag, hresp, by omega⟩

/-! ### The answered byte decides nothing but the result (43_stop_reset_status.md R189; 60_exceptions.md R235) -/

/-- The bytes kept stay those past the command part (10_state.md R26). -/
theorem length_received {e : Engine} (hrx : e.rx.length = e.idx - e.ncmd) (r : Byte) :
    (received e r).length = e.idx + 1 - e.ncmd := by
  unfold received
  split
  · simp; omega
  · omega

/-- A command's completion with all its response bytes is no error (60_exceptions.md R226; log 14). -/
theorem completion_ne_err {cfg : Config} {op : Byte} {c : Cmd} {rx : List Byte} (hc : decodeCommand cfg op = .ok c)
    (hlen : rx.length = c.nresp) (tag : Tag) (e : Err) : completion cfg (respOf c) tag rx ≠ .err e := by
  rw [← nresp_respOf hc] at hlen
  cases hresp : respOf c with
  | none => simp [completion]
  | status => simp [completion]
  | param a =>
    obtain ⟨d, hd⟩ := lookup_of_respOf_eq_param hc hresp
    rw [hresp] at hlen
    simp only [completion, decodeParamResponse_of_length hd hlen]
    split <;> simp

/-- Settles O34: index and length alone say whether the frame goes on or completes, and the bytes kept at completion are
as many as the command's response has. -/
theorem chipDataNeverChangesPhase : Obligations.ChipDataNeverChangesPhase := by
  intro s b c more hinv hphase hinbox
  obtain ⟨hidx, hrx, op, cmd, hcmd, htag, hresp, hlen⟩ := command_of_inv hinv hphase
  obtain ⟨hcfg, -⟩ := hinv
  have answered (r : Byte) := step_exchanges (s := { s with answers := some r :: more }) hcfg hinbox hphase
    (List.getElem?_eq_getElem hidx) htag rfl
  refine ⟨_, _, answered b, answered c, ?_⟩
  by_cases hlast : s.engine.idx + 1 = s.engine.frame.length
  · rw [advance_last (s := exchange _ { s with answers := _ }) _ b hlast,
      advance_last (s := exchange _ { s with answers := _ }) _ c hlast]
    refine ⟨rfl, by simp, rfl, rfl, rfl, rfl, fun _ e => ?_⟩
    have hall : (received s.engine b).length = cmd.nresp := by rw [length_received hrx]; omega
    simpa [hresp] using completion_ne_err hcmd hall cmd.kind.tag e
  · rw [advance_more (s := exchange _ { s with answers := _ }) _ b hlast,
      advance_more (s := exchange _ { s with answers := _ }) _ c hlast]
    simp [hphase]

/-! ### The two paths of a status word (43_stop_reset_status.md R188; 41_config_commands.md R133) -/

/-- Completion gives a status word with the frame's tag, and with the path of its response. -/
theorem completion_eq_status {cfg : Config} {resp : Resp} {tag tag' : Tag} {rx : List Byte} {path : StatusPath}
    {w : Nat} (h : completion cfg resp tag rx = .status tag' path w) :
    tag' = tag ∧ (path = .clearing ∧ resp = .status ∨ path = .nonclearing ∧ resp = .param 0x19) := by
  cases resp with
  | none => cases h
  | status => cases h; exact ⟨rfl, .inl ⟨rfl, rfl⟩⟩
  | param a =>
    simp only [completion] at h
    split at h
    · split at h
      · next ha => cases h; exact ⟨rfl, .inr ⟨rfl, congrArg Resp.param ha⟩⟩
      · cases h
    · cases h

/-- A step that ends with a status result completed a frame in flight, or completed none and kept the result. -/
theorem completed_or_kept_of_status {s t : State} {tag : Tag} {path : StatusPath} {w : Nat} (h : step s = .next t)
    (hres : t.engine.res = .status tag path w) :
    (s.engine.phase = .xfer ∧ ∃ tag' rx, s.engine.tag = some tag' ∧
      t.engine = emptied .idle (completion s.cfg s.engine.resp tag' rx)) ∨
    (t.engine.res = s.engine.res ∧ ¬ (s.engine.phase = .xfer ∧ t.engine.phase = .idle)) := by
  cases step_effect h with
  | waits hphase => exact .inr ⟨rfl, fun ⟨hxfer, _⟩ => hphase hxfer⟩
  | @advances b r tag hphase _ _ _ hmore =>
    rw [advance_more (s := exchange b (taken s)) tag r hmore]
    exact .inr ⟨rfl, by simp [hphase]⟩
  | @completes b r tag hphase _ htag _ hlast =>
    rw [advance_last (s := exchange b (taken s)) tag r hlast]
    exact .inl ⟨hphase, tag, _, htag, rfl⟩
  | fails _ _ _ => cases hres
  | resets _ => cases hres
  | converts _ => exact .inr ⟨rfl, by simp +contextual⟩
  | decodes _ => exact .inr ⟨rfl, by simp +contextual⟩
  | refuses _ => cases hres
  | accepts hphase _ => exact .inr ⟨rfl, by simp [hphase]⟩

/-- Block reset leaves no status result (70_reset_and_hazards.md R250). -/
theorem no_reset_of_status {s t : State} {tag : Tag} {path : StatusPath} {w : Nat} (hcfg : configOk s.cfg = true)
    (h : step s = .next t) (hres : t.engine.res = .status tag path w) : s.inbox.head? ≠ some .reset := by
  intro hhost
  obtain ⟨rest, hinbox⟩ := List.head?_eq_some_iff.1 hhost
  rw [step_reset hcfg hinbox] at h
  cases h
  cases hres

/-- Settles O33: only completion writes a status result, with the path of the response and the tag of the command, and
the response tells the command's kind. -/
theorem statusPathsStayDistinct : Obligations.StatusPathsStayDistinct := by
  intro s t tag path w hinv h hres
  obtain ⟨hphase, tag', rx, htag', heng⟩ | ⟨hkept, hnone⟩ := completed_or_kept_of_status h hres
  · have hhost := no_reset_of_status hinv.1 h hres
    obtain ⟨-, -, op, c, -, htag, hresp, -⟩ := command_of_inv hinv hphase
    obtain rfl : c.kind.tag = tag' := by simpa [htag] using htag'
    rw [heng] at hres
    obtain ⟨rfl, hpath⟩ := completion_eq_status hres
    refine ⟨fun _ _ _ => hpath.imp ?_ ?_, fun _ => ⟨hphase, by rw [heng]; rfl, hhost⟩⟩
    · rintro ⟨rfl, hstatus⟩
      exact ⟨rfl, by rw [kind_of_respOf_eq_status (hresp ▸ hstatus)]; rfl, hstatus⟩
    · rintro ⟨rfl, hparam⟩
      exact ⟨rfl, by rw [(kind_of_respOf_eq_param (hresp ▸ hparam)).1]; rfl, hparam⟩
  · exact ⟨fun hphase hidle _ => absurd ⟨hphase, hidle⟩ hnone, fun hchanged => absurd hkept hchanged⟩

end Sys2Proof
end

section
/-!
PROOFS. The decoders of the wire (44_decoders.md R200 to R209): the command of each opcode byte, the length of a frame
by its first byte, what decodeFrame answers, and decodeFrame as the left inverse of the command encoders.
-/

namespace Sys2Proof

open Sys2Proof.Machine Sys2Proof.Safety

/-! ### decodeCommand (44_decoders.md R202 to R206) -/

/-- A REG byte of an address without a descriptor is unknown (44_decoders.md R206). -/
theorem decodeCommand_of_not_admitted {cfg : Config} {b : Byte} {f : OpFields} {a : Nat} (h : opFields b = some f)
    (ha : f.a = some a) (hadmitted : admitted cfg a = false) : decodeCommand cfg b = .error (.unknownCommand b) := by
  simp [decodeCommand, h, ha, lookup_of_not_admitted hadmitted]

/-- The byte of SET_PARAM is the address itself (30_encoding.md R73). -/
theorem opFields_setParam_byte {a : Nat} (ha : a ≤ 31) :
    opFields (BitVec.ofNat 8 a) = some { kind := .setParam, a := some a } := by
  simpa [byteOf] using opFields_setParam ha

/-- The byte of GET_PARAM is 32 above the address (30_encoding.md R73). -/
theorem opFields_getParam_byte {a : Nat} (ha : a ≤ 31) :
    opFields (BitVec.ofNat 8 (32 + a)) = some { kind := .getParam, a := some a } := by
  simpa [byteOf, or_address ha] using opFields_getParam ha

/-- Settles O45: the opcode map gives the fields of each byte, the descriptor table its lengths. -/
theorem commandBytesDecode : Obligations.CommandBytesDecode := by
  intro cfg
  have fixed {b : Byte} {k : Kind} (h : opFields b = some { kind := k }) :
      decodeCommand cfg b = .ok (cmdOf { kind := k } 0) := decodeCommand_of_no_register h rfl
  refine ⟨fun a d hd => ?_, fun a ha hadmitted => ?_, fun d hd => ?_, fun c d hc hd => ?_, fixed rfl, fixed rfl,
    fixed rfl, fixed rfl, fixed rfl, fixed rfl, fixed rfl, fixed rfl, fixed rfl, fixed rfl⟩
  · obtain ⟨ha, -, -⟩ := lookup_ok hd
    exact ⟨decodeCommand_of_register (opFields_setParam_byte ha) rfl hd,
      decodeCommand_of_register (opFields_getParam_byte ha) rfl hd⟩
  · exact ⟨decodeCommand_of_not_admitted (opFields_setParam_byte ha) rfl hadmitted,
      decodeCommand_of_not_admitted (opFields_getParam_byte ha) rfl hadmitted⟩
  · have hmove := decodeCommand_of_no_register (cfg := cfg) (opFields_move hd) rfl
    have hrun := decodeCommand_of_no_register (cfg := cfg) (opFields_run hd) rfl
    have hgotoDir := decodeCommand_of_no_register (cfg := cfg) (opFields_gotoDir hd) rfl
    obtain rfl | rfl := Nat.le_one_iff_eq_zero_or_eq_one.1 hd <;> exact ⟨hmove, hrun, hgotoDir⟩
  · have hgoUntil := decodeCommand_of_no_register (cfg := cfg) (opFields_goUntil hc hd) rfl
    have hreleaseSw := decodeCommand_of_no_register (cfg := cfg) (opFields_releaseSw hc hd) rfl
    obtain rfl | rfl := Nat.le_one_iff_eq_zero_or_eq_one.1 hc <;>
      obtain rfl | rfl := Nat.le_one_iff_eq_zero_or_eq_one.1 hd <;> exact ⟨hgoUntil, hreleaseSw⟩

/-! ### frameLength (44_decoders.md R207) -/

theorem frameLength_of_ok {cfg : Config} {b : Byte} {c : Cmd} (hc : decodeCommand cfg b = .ok c) :
    frameLength cfg b = .ok (c.ncmd + c.nresp) := by
  simp [frameLength, hc]

theorem frameLength_of_error {cfg : Config} {b : Byte} {e : Err} (h : decodeCommand cfg b = .error e) :
    frameLength cfg b = .error e := by
  simp [frameLength, h]

/-- Settles O43: an opcode byte and at most 3 bytes after it, or E9 with the byte. -/
theorem frameLengthFromFirstByte : Obligations.FrameLengthFromFirstByte := by
  intro cfg b
  cases h : decodeCommand cfg b with
  | ok c =>
    obtain ⟨hpos, hle, -⟩ := decodeCommand_lengths h
    exact .inl ⟨c, _, rfl, frameLength_of_ok h, rfl, by omega, hle⟩
  | error e =>
    obtain rfl := decodeCommand_error h
    exact .inr ⟨rfl, frameLength_of_error h⟩

/-! ### requestOf and decodeFrame (44_decoders.md R208) -/

/-- A motion command with an argument has 3 payload bytes and no response (30_encoding.md R79). -/
theorem Kind.lengths_of_argWidth {k : Kind} {aw : Nat} (h : k.argWidth = some aw) (w : Nat) :
    k.payloadBytes w = 3 ∧ k.respBytes w = 0 ∧ aw ≤ 22 := by
  cases k <;> cases h <;> exact ⟨rfl, rfl, by decide⟩

/-- Only the REG forms name a register, and they have no direction and no action (30_encoding.md R73 to R76). -/
theorem opFields_of_register {b : Byte} {f : OpFields} {a : Nat} (h : opFields b = some f) (ha : f.a = some a) :
    f.d = none ∧ f.c = none := by
  simp only [opFields] at h
  split at h
  · cases h; exact ⟨rfl, rfl⟩
  · -- the three DIR forms and the two ACTDIR forms, then the FIXED forms
    iterate 5 (split at h; · cases h; cases ha)
    split at h <;> cases h
    cases ha

section
variable {cfg : Config} {b : Byte} {c : Cmd} {rest : List Byte}

theorem decodeFrame_of_unknown {e : Err} (h : decodeCommand cfg b = .error e) (rest : List Byte) :
    decodeFrame cfg (b :: rest) = .error e := by
  simp [decodeFrame, h]

variable (hc : decodeCommand cfg b = .ok c)
include hc

theorem decodeFrame_of_bad_length (hlen : (b :: rest).length ≠ c.ncmd + c.nresp) :
    decodeFrame cfg (b :: rest) = .error (.responseLength (b :: rest).length) := by
  rw [List.length_cons] at hlen
  simp [decodeFrame, hc, hlen]

/-- With the right length the frame spells the request of its command and payload. -/
theorem decodeFrame_of_length (hlen : (b :: rest).length = c.ncmd + c.nresp) :
    decodeFrame cfg (b :: rest) = requestOf cfg c (unbe (rest.take (c.ncmd - 1))) := by
  rw [List.length_cons] at hlen
  simp [decodeFrame, hc, hlen]

/-- Without a response the payload is all that follows the opcode. -/
theorem decodeFrame_of_payload (hlen : (b :: rest).length = c.ncmd + c.nresp) (hresp : c.nresp = 0) :
    decodeFrame cfg (b :: rest) = requestOf cfg c (unbe rest) := by
  rw [decodeFrame_of_length hc hlen, List.take_of_length_le]
  rw [List.length_cons] at hlen
  omega

theorem nresp_of_argWidth {w : Nat} (hw : c.kind.argWidth = some w) : c.nresp = 0 := by
  obtain ⟨f, regW, -, rfl, -⟩ := decodeCommand_ok hc
  obtain ⟨-, hresp, -⟩ := Kind.lengths_of_argWidth hw regW
  exact hresp

theorem nresp_of_setParam (hk : c.kind = .setParam) : c.nresp = 0 := by
  obtain ⟨f, w, -, rfl, -⟩ := decodeCommand_ok hc
  have hk : f.kind = .setParam := hk
  simp [cmdOf, Kind.respBytes, hk]

variable (hlen : (b :: rest).length = c.ncmd + c.nresp)
include hlen

theorem decodeFrame_motion_of_ge {w : Nat} (hw : c.kind.argWidth = some w) (hp : unbe rest ≥ 2 ^ w) :
    decodeFrame cfg (b :: rest) = .error (.argRange (unbe rest)) := by
  rw [decodeFrame_of_payload hc hlen (nresp_of_argWidth hc hw)]
  simp [requestOf, hw, hp]

theorem decodeFrame_motion_of_lt {w : Nat} (hw : c.kind.argWidth = some w) (hp : unbe rest < 2 ^ w) :
    decodeFrame cfg (b :: rest) =
      .ok { op := c.kind, value := unbe rest, dir := c.d.getD 0, act := c.c.getD 0 } := by
  rw [decodeFrame_of_payload hc hlen (nresp_of_argWidth hc hw)]
  simp [requestOf, hw, hp]

/-- A SET_PARAM byte has no direction and no action; its payload is masked. -/
theorem decodeFrame_setParam {a : Nat} (hk : c.kind = .setParam) (ha : c.a = some a) :
    decodeFrame cfg (b :: rest) =
      .ok { op := .setParam, reg := a, value := unbe rest % 2 ^ regWidth cfg a } := by
  obtain ⟨hd, hact⟩ : c.d = none ∧ c.c = none := by
    obtain ⟨f, w, hf, rfl, -⟩ := decodeCommand_ok hc
    exact opFields_of_register hf ha
  rw [decodeFrame_of_payload hc hlen (nresp_of_setParam hc hk)]
  simp [requestOf, Kind.argWidth, mask, hk, ha, hd, hact]

/-- Any other command is read from its opcode byte alone, whatever the fillers after it. -/
theorem decodeFrame_of_no_payload (hw : c.kind.argWidth = none) (hk : c.kind ≠ .setParam) :
    decodeFrame cfg (b :: rest) =
      .ok { op := c.kind, reg := c.a.getD 0, dir := c.d.getD 0, act := c.c.getD 0 } := by
  rw [decodeFrame_of_length hc hlen]
  simp [requestOf, hw, hk]

end

/-! ### The two decoders on their port (44_decoders.md R200, R208) -/

theorem exec_decodeCommand (b : Byte) (s : State) :
    exec (.decodeCommand b) s =
      .next { s with decOut := some (decResult .command (decodeCommand s.cfg b)) } := rfl

theorem exec_decodeFrame (bytes : List Byte) (s : State) :
    exec (.decodeFrame bytes) s =
      .next { s with decOut := some (decResult .request (decodeFrame s.cfg bytes)) } := rfl

section
variable {s : State} {b : Byte} {bytes : List Byte} {e : Err}

theorem exec_decodeCommand_of_ok {c : Cmd} (h : decodeCommand s.cfg b = .ok c) :
    exec (.decodeCommand b) s = .next { s with decOut := some (.command c) } := by
  rw [exec_decodeCommand, h]
  rfl

theorem exec_decodeCommand_of_error (h : decodeCommand s.cfg b = .error e) :
    exec (.decodeCommand b) s = .next { s with decOut := some (.err e) } := by
  rw [exec_decodeCommand, h]
  rfl

theorem exec_decodeFrame_of_ok {q : Request} (h : decodeFrame s.cfg bytes = .ok q) :
    exec (.decodeFrame bytes) s = .next { s with decOut := some (.request q) } := by
  rw [exec_decodeFrame, h]
  rfl

theorem exec_decodeFrame_of_error (h : decodeFrame s.cfg bytes = .error e) :
    exec (.decodeFrame bytes) s = .next { s with decOut := some (.err e) } := by
  rw [exec_decodeFrame, h]
  rfl

end

/-- A byte that decodes to no command is unknown (44_decoders.md R206). -/
theorem decodeCommand_of_no_command {cfg : Config} {b : Byte} (h : ∀ c, decodeCommand cfg b ≠ .ok c) :
    decodeCommand cfg b = .error (.unknownCommand b) := by
  cases hb : decodeCommand cfg b with
  | ok c => exact absurd hb (h c)
  | error e => rw [decodeCommand_error hb]

/-- Settles O48: each outcome of the two decoders, on the port. -/
theorem commandDecodersAnswer : Obligations.CommandDecodersAnswer := by
  refine fun s => ⟨fun b c => exec_decodeCommand_of_ok, fun b hb => ?_, exec_decodeFrame_of_error rfl,
    fun b c rest hc hlen => exec_decodeFrame_of_error (decodeFrame_of_bad_length hc hlen),
    fun b c rest w hc hlen hw hp => exec_decodeFrame_of_error (decodeFrame_motion_of_ge hc hlen hw hp),
    fun b c rest w hc hlen hw hp => exec_decodeFrame_of_ok (decodeFrame_motion_of_lt hc hlen hw hp),
    fun b c rest a hc hlen hk ha => exec_decodeFrame_of_ok (decodeFrame_setParam hc hlen hk ha),
    fun b c rest hc hlen hw hk => exec_decodeFrame_of_ok (decodeFrame_of_no_payload hc hlen hw hk)⟩
  have hunknown := decodeCommand_of_no_command hb
  exact ⟨exec_decodeCommand_of_error hunknown,
    fun rest => exec_decodeFrame_of_error (decodeFrame_of_unknown hunknown rest)⟩

end Sys2Proof
end

section
/-!
PROOFS. The law of the encoding (44_decoders.md R209): decodeFrame is a left inverse of the frame of an accepted
request, up to the request's canonical form.
-/

namespace Sys2Proof

open Sys2Proof.Machine Sys2Proof.Safety

/-! ### The frame of an accepted request is that of `encode` (30_encoding.md R71 to R82) -/

theorem setParamEmission_ok {cfg : Config} {a v : Nat} {em : Emission} (h : setParamEmission cfg a v = .ok em) :
    ∃ d, lookup cfg a = .ok d ∧ d.access = .rw ∧ encodeSetParam cfg a v = .ok em.frame := by
  unfold setParamEmission at h
  split at h
  · cases h
  · next d hd =>
    split at h
    · cases h
    · next hrw =>
      split at h
      · next hf => cases h; exact ⟨d, hd, hrw, hf⟩
      · cases h

theorem setLspdOptEmission_ok {cfg : Config} {e : Nat} {em : Emission} (h : setLspdOptEmission cfg e = .ok em) :
    e = 1 ∧ encodeSetParam cfg minSpeedAddr 0x1000 = .ok em.frame := by
  unfold setLspdOptEmission at h
  split at h
  · cases h
  · next hf =>
    obtain ⟨hchecks, rfl⟩ := checked_ok h
    exact ⟨checkEnable_eq_none.1 (firstErr_eq_none.1 hchecks _ (by simp)), hf⟩

theorem encode_setParam {cfg : Config} {a v : Nat} {em : Emission} (h : setParamEmission cfg a v = .ok em) :
    encode cfg (.setParam a v) = some em.frame := by
  obtain ⟨d, hd, hrw, hf⟩ := setParamEmission_ok h
  simp [encode, Instr.wellFormed, hd, hrw, hf, Except.toOption]

theorem encode_getParam {cfg : Config} {a : Nat} {em : Emission} (h : getParamEmission cfg a = .ok em) :
    encode cfg (.getParam a) = some em.frame := by
  cases hd : lookup cfg a with
  | error e => simp [getParamEmission, hd] at h
  | ok d =>
    rw [getParamEmission_of_lookup hd] at h
    cases h
    exact if_pos (admitted_iff.2 ⟨d, hd⟩)

theorem encode_setLspdOpt {cfg : Config} {e : Nat} {em : Emission} (h : setLspdOptEmission cfg e = .ok em) :
    encode cfg (.setLspdOpt e) = some em.frame := by
  obtain ⟨rfl, hf⟩ := setLspdOptEmission_ok h
  obtain ⟨d, hd, -⟩ := encodeSetParam_ok hf
  have hadmitted := admitted_iff.2 ⟨d, hd⟩
  simp [encode, Instr.wellFormed, hadmitted, hf, Except.toOption]

/-- What a command-port operation hands to the engine is the frame of `encode`. -/
theorem exec_command_encode (i : Instr) (s : State) (hi : (instrKind i).isSome = true) :
    ∃ m, exec i s = .next (commandPort m s) ∧ ∀ em, m = .ok em → encode s.cfg i = some em.frame := by
  cases i
  case setParam => exact ⟨_, rfl, fun _ => encode_setParam⟩
  case getParam => exact ⟨_, rfl, fun _ => encode_getParam⟩
  case setLspdOpt => exact ⟨_, rfl, fun _ => encode_setLspdOpt⟩
  case run | move | goto | gotoDir | goUntil | releaseSw =>
    refine ⟨_, rfl, fun em h => ?_⟩
    obtain ⟨hchecks, rfl⟩ := checked_ok h
    refine if_pos ?_
    simpa [checkDir_eq_none, checkAct_eq_none, checkArg_eq_none, Instr.wellFormed, and_assoc] using
      firstErr_eq_none.1 hchecks
  case goHome | goMark | softStop | hardStop | softHiz | hardHiz | resetPos | resetDevice | getStatus =>
    refine ⟨_, rfl, fun em h => ?_⟩
    cases h
    rfl
  all_goals cases hi

/-- A command record spells an operation of the command port (30_encoding.md R92). -/
theorem instrKind_decodeRequest (q : Request) : instrKind (decodeRequest q) = some q.op := by
  obtain ⟨op, _, _, _, _, _⟩ := q
  cases op <;> rfl

/-- A request accepted in IDLE has the frame of `encode` in flight (60_exceptions.md R231). -/
theorem encode_of_accepted {s t : State} {q : Request} (hidle : s.engine.phase = .idle)
    (h : exec (decodeRequest q) s = .next t) (hxfer : t.engine.phase = .xfer) :
    encode s.cfg (decodeRequest q) = some t.engine.frame := by
  obtain ⟨m, hm, hencode⟩ := exec_command_encode (decodeRequest q) s (by simp [instrKind_decodeRequest])
  rw [hm] at h
  cases h
  obtain ⟨e, he⟩ | ⟨-, em, hem, he⟩ := commandPort_cases m s
  · simp [he, hidle] at hxfer
  · rw [he, hencode em hem]
    rfl

/-! ### decodeFrame of each encoder's frame (44_decoders.md R208, R209) -/

/-- A register write, from the pure encoder: the masked value is read back (41_config_commands.md R131). -/
theorem decodeFrame_encodeSetParam {cfg : Config} {a v : Nat} {f : List Byte} (hcfg : configOk cfg = true)
    (h : encodeSetParam cfg a v = .ok f) :
    decodeFrame cfg f = .ok { op := .setParam, reg := a, value := mask (regWidth cfg a) v } := by
  obtain ⟨d, hd, rfl⟩ := encodeSetParam_ok h
  obtain ⟨ha, -, -⟩ := lookup_ok hd
  obtain ⟨-, hw⟩ := lookup_width hcfg hd
  have hc := decodeCommand_of_register (opFields_setParam ha) rfl hd
  have hlen : (byteOf (0x00 ||| a) :: be (nbytes d.width) (mask d.width v)).length = 1 + nbytes d.width + 0 := by
    simp [Nat.add_comm]
  rw [decodeFrame_setParam hc hlen rfl rfl, unbe_be (lt_pow_nbytes (by omega) (mask_lt _ _)), regWidth_of_lookup hd]
  simp only [mask, Nat.mod_mod]

/-- A motion frame: its argument is below `2^22`, so 3 bytes hold it (30_encoding.md R80, 42_motion_commands.md
R150). -/
theorem decodeFrame_motionFrame {cfg : Config} {op : Byte} {f : OpFields} {v w : Nat} (hop : opFields op = some f)
    (ha : f.a = none) (hw : f.kind.argWidth = some w) (hv : v < 2 ^ w) :
    decodeFrame cfg (op :: be 3 v) =
      .ok { op := f.kind, value := v, dir := f.d.getD 0, act := f.c.getD 0 } := by
  obtain ⟨hpay, hresp, hle⟩ := Kind.lengths_of_argWidth hw 0
  have hlen : (op :: be 3 v).length = (cmdOf f 0).ncmd + (cmdOf f 0).nresp := by simp [cmdOf, hpay, hresp]
  have hunbe : unbe (be 3 v) = v := by
    have := Nat.pow_le_pow_right (by decide : 0 < 2) hle
    exact unbe_be (by omega)
  rw [decodeFrame_motion_of_lt (decodeCommand_of_no_register hop ha) hlen hw (by rwa [hunbe]), hunbe]
  rfl

/-- A register read, its fillers not looked at (41_config_commands.md R132). -/
theorem decodeFrame_getParam {cfg : Config} {a : Nat} (h : admitted cfg a = true) :
    decodeFrame cfg (readFrame cfg (byteOf (0x20 ||| a)) (nbytes (regWidth cfg a))) =
      .ok { op := .getParam, reg := a } := by
  obtain ⟨d, hd⟩ := admitted_iff.1 h
  obtain ⟨ha, -, -⟩ := lookup_ok hd
  have hc := decodeCommand_of_register (opFields_getParam ha) rfl hd
  have hlen : (readFrame cfg (byteOf (0x20 ||| a)) (nbytes (regWidth cfg a))).length = 1 + nbytes d.width := by
    simp [readFrame, regWidth_of_lookup hd, Nat.add_comm]
  exact decodeFrame_of_no_payload hc hlen rfl (by simp [cmdOf])

/-- A FIXED form without an argument: the kind is all there is to read (30_encoding.md R76). -/
theorem decodeFrame_fixed {cfg : Config} {op : Byte} {k : Kind} {rest : List Byte}
    (hop : opFields op = some { kind := k })
    (hlen : (op :: rest).length = 1 + k.payloadBytes 0 + k.respBytes 0) (hw : k.argWidth = none)
    (hk : k ≠ .setParam) : decodeFrame cfg (op :: rest) = .ok { op := k } :=
  decodeFrame_of_no_payload (decodeCommand_of_no_register hop rfl) hlen hw hk

/-- decodeFrame is a left inverse of `encode`, up to the canonical form (44_decoders.md R209). -/
theorem decodeFrame_encode {cfg : Config} {q : Request} {f : List Byte} (hcfg : configOk cfg = true)
    (hwidth : q.op = .setLspdOpt → regWidth cfg 0x08 = 13) (h : encode cfg (decodeRequest q) = some f) :
    decodeFrame cfg f = .ok (canon cfg q) := by
  have hwf := wellFormed_of_encode h
  simp only [encode, hwf, if_true] at h
  obtain ⟨op, reg, value, dir, act, enable⟩ := q
  cases op
  case setParam => exact decodeFrame_encodeSetParam hcfg (eq_ok_of_toOption h)
  case setLspdOpt =>
    rw [decodeFrame_encodeSetParam hcfg (eq_ok_of_toOption h), minSpeedAddr, hwidth rfl]
    rfl
  all_goals
    cases h
    simp only [decodeRequest, Instr.wellFormed, Bool.and_eq_true, decide_eq_true_eq] at hwf
  case getParam => exact decodeFrame_getParam hwf
  case run =>
    obtain ⟨hdir, hv⟩ := hwf
    exact decodeFrame_motionFrame (opFields_run hdir) rfl rfl hv
  case move =>
    obtain ⟨hdir, hn⟩ := hwf
    exact decodeFrame_motionFrame (opFields_move hdir) rfl rfl hn
  case goto => exact decodeFrame_motionFrame (f := { kind := .goto }) rfl rfl rfl hwf
  case gotoDir =>
    obtain ⟨hdir, hp⟩ := hwf
    exact decodeFrame_motionFrame (opFields_gotoDir hdir) rfl rfl hp
  case goUntil =>
    obtain ⟨⟨hact, hdir⟩, hv⟩ := hwf
    exact decodeFrame_motionFrame (opFields_goUntil hact hdir) rfl rfl hv
  case releaseSw =>
    obtain ⟨hact, hdir⟩ := hwf
    have hop := decodeCommand_of_no_register (cfg := cfg) (opFields_releaseSw hact hdir) rfl
    exact decodeFrame_of_no_payload hop rfl rfl (by simp [cmdOf])
  case goHome | goMark | softStop | hardStop | softHiz | hardHiz | resetPos | resetDevice | getStatus =>
    exact decodeFrame_fixed rfl rfl rfl (by decide)

/-- The first byte of a frame that decodes tells the frame's length (44_decoders.md R207, R208). -/
theorem frameLength_of_decodeFrame {cfg : Config} {f : List Byte} {q : Request} (h : decodeFrame cfg f = .ok q) :
    ∃ op rest, f = op :: rest ∧ frameLength cfg op = .ok f.length := by
  cases f with
  | nil => cases h
  | cons op rest =>
    refine ⟨op, rest, rfl, ?_⟩
    cases hc : decodeCommand cfg op with
    | error e => rw [decodeFrame_of_unknown hc] at h; cases h
    | ok c =>
      by_cases hlen : (op :: rest).length = c.ncmd + c.nresp
      · rw [frameLength_of_ok hc, hlen]
      · rw [decodeFrame_of_bad_length hc hlen] at h; cases h

/-- Settles O41: the frame in flight is that of `encode`, of which decodeFrame is a left inverse; so the frame fixes
the canonical form and, decoding, has the length its first byte tells. -/
theorem frameDecodesToCanonicalRequest : Obligations.FrameDecodesToCanonicalRequest := by
  intro s t q hcfg hidle hwidth h hxfer
  have hencode := encode_of_accepted hidle h hxfer
  have hdecode := decodeFrame_encode hcfg hwidth hencode
  refine ⟨hdecode, frameLength_of_decodeFrame hdecode, hencode, fun u q' hwidth' h' hxfer' hframe => ?_⟩
  have hdecode' := decodeFrame_encode hcfg hwidth' (encode_of_accepted hidle h' hxfer')
  rw [hframe, hdecode] at hdecode'
  exact (Except.ok.inj hdecode').symm

end Sys2Proof
end

section
/-!
PROOFS. The errors of the command port (60_exceptions.md R220 to R230, R233): which check refuses a request, in which
order, and that a refusal writes `res` alone.
-/

namespace Sys2Proof

open Sys2Proof.Machine Sys2Proof.Safety

/-! ### Outside IDLE the phase refuses a request, before any check of it (60_exceptions.md R227, R233) -/

section
variable {i : Instr} {s : State} (hi : IsCommand i)
include hi

theorem exec_command_xfer (hphase : s.engine.phase = .xfer) : exec i s = .next (refusedWith .engineBusy s) := by
  obtain ⟨m, hm, -⟩ := exec_command i s hi
  rw [hm, commandPort_xfer hphase]
  rfl

theorem exec_command_desync (hphase : s.engine.phase = .desync) : exec i s = .next (refusedWith .desync s) := by
  obtain ⟨m, hm, -⟩ := exec_command i s hi
  rw [hm, commandPort_desync hphase]
  rfl

end

/-- Settles O9: the command port asks the phase first. -/
theorem busyEngineRefusesRequests : Obligations.BusyEngineRefusesRequests :=
  fun _ _ hi hphase => exec_command_xfer hi hphase

/-! ### A register without a descriptor: E1 (60_exceptions.md R222) -/

theorem lookup_of_unknown {cfg : Config} {a : Nat} (h : a ≥ 32 ∨ ∀ d ∈ cfg.regTable, d.addr ≠ a) :
    lookup cfg a = .error (.unknownRegister a) := by
  obtain hbeyond | habsent := h
  · exact if_pos hbeyond
  · exact lookup_of_no_descriptor habsent

theorem setParamEmission_of_lookup_error {cfg : Config} {a : Nat} {e : Err} (h : lookup cfg a = .error e) (v : Nat) :
    setParamEmission cfg a v = .error e := by
  simp [setParamEmission, h]

theorem getParamEmission_of_lookup_error {cfg : Config} {a : Nat} {e : Err} (h : lookup cfg a = .error e) :
    getParamEmission cfg a = .error e := by
  simp [getParamEmission, h]

/-- Without MIN_SPEED in the table, SET_LSPD_OPT is refused with E1, whatever the enable (log 11). -/
theorem exec_setLspdOpt_of_no_minSpeed {s : State} (hidle : s.engine.phase = .idle)
    (h : lookup s.cfg 0x08 = .error (.unknownRegister 0x08)) (e : Nat) :
    exec (.setLspdOpt e) s = .next (refusedWith (.unknownRegister 0x08) s) := by
  rw [exec_setLspdOpt, setLspdOptEmission_of_no_minSpeed h, commandPort_idle_refusedWith hidle]

/-- Settles O11: each of the four looks the address up before anything else. -/
theorem unknownRegisterRefused : Obligations.UnknownRegisterRefused := by
  intro s a v bytes hunknown
  have hlookup := lookup_of_unknown hunknown
  refine ⟨?_, fun hidle => ⟨?_, ?_, ?_⟩⟩
  · rw [exec_decodeParam, decodeParamResponse_of_lookup_error hlookup]
    rfl
  · rw [exec_setParam, setParamEmission_of_lookup_error hlookup, commandPort_idle_refusedWith hidle]
  · rw [exec_getParam, getParamEmission_of_lookup_error hlookup, commandPort_idle_refusedWith hidle]
  · rintro rfl
    exact exec_setLspdOpt_of_no_minSpeed hidle hlookup 1

/-! ### Undefined codes and wide arguments: E3 and E4 (60_exceptions.md R224, R225) -/

/-- Settles O13: the refusals with E3 in the statements about each operation. -/
theorem undefinedCodesRefused : Obligations.UndefinedCodesRefused := by
  intro s c d v hidle
  obtain ⟨-, hrun, -⟩ := runFrames s d v hidle
  obtain ⟨-, hmove, -⟩ := moveFrames s d v hidle
  obtain ⟨-, hgotoDir, -⟩ := gotoDirFrames s d v hidle
  obtain ⟨-, hgoUntilAct, hgoUntilDir, -⟩ := goUntilFrames s c d v hidle
  obtain ⟨-, hreleaseSwAct, hreleaseSwDir⟩ := releaseSwFrames s c d hidle
  obtain ⟨-, -, hsetLspdOpt, -⟩ := setLspdOptFrames s v hidle
  exact ⟨fun hd => ⟨hrun hd, hmove hd, hgotoDir hd⟩, fun hc => ⟨hgoUntilAct hc, hreleaseSwAct hc⟩,
    fun hc hd => ⟨hgoUntilDir hc hd, hreleaseSwDir hc hd⟩, hsetLspdOpt⟩

/-- Settles O14: the refusals with E4 in the statements about each operation. -/
theorem wideMotionArgumentsRefused : Obligations.WideMotionArgumentsRefused := by
  intro s c d v hidle hc hd
  obtain ⟨-, -, hrun⟩ := runFrames s d v hidle
  obtain ⟨-, -, -, hgoUntil⟩ := goUntilFrames s c d v hidle
  obtain ⟨-, -, hmove⟩ := moveFrames s d v hidle
  obtain ⟨-, hgoto, -⟩ := gotoFrames s v hidle
  obtain ⟨-, -, hgotoDir⟩ := gotoDirFrames s d v hidle
  exact ⟨fun hv => ⟨hrun hd hv, hgoUntil hc hd hv⟩, fun hv => ⟨hmove hd hv, hgoto hv, hgotoDir hd hv⟩⟩

/-! ### Several errors at once (60_exceptions.md R229) -/

theorem decodeCommand_of_unassigned {cfg : Config} {b : Byte} (h : opFields b = none) :
    decodeCommand cfg b = .error (.unknownCommand b) := by
  simp [decodeCommand, h]

/-- Settles O15: the phase before the checks, the checks in the order of R229, the byte before the length and the length
before the payload. -/
theorem firstApplicableErrorReported : Obligations.FirstApplicableErrorReported := by
  refine ⟨fun i s hi _ => ⟨exec_command_desync hi, exec_command_xfer hi⟩, fun s c d v hidle => ?_,
    fun cfg a bytes hadmitted => decodeParamResponse_of_lookup_error (lookup_of_not_admitted hadmitted),
    fun cfg b rest hb => decodeFrame_of_unknown (decodeCommand_of_unassigned hb) rest,
    fun cfg b c rest hc hlen => decodeFrame_of_bad_length hc hlen⟩
  obtain ⟨-, hgoUntilAct, hgoUntilDir, -⟩ := goUntilFrames s c d v hidle
  obtain ⟨-, hgotoDir, -⟩ := gotoDirFrames s d v hidle
  exact ⟨fun hc _ _ => hgoUntilAct hc, fun hc hd _ => hgoUntilDir hc hd, fun hd _ => hgotoDir hd,
    fun _ hadmitted => exec_setLspdOpt_of_no_minSpeed hidle (lookup_of_not_admitted hadmitted) v⟩

/-! ### A request is accepted well formed, or refused with an error of the command port (60_exceptions.md R230) -/

/-- The errors a command-port request can end with: all but those of the transport and of the decoders
(60_exceptions.md R221). -/
def IsCommandError : Err → Prop
  | .responseLength _ | .transportFail _ | .unknownCommand _ => False
  | .unknownRegister _ | .readOnlyRegister _ | .badEnum _ | .argRange _ | .engineBusy | .desync => True

theorem isCommandError_iff {e : Err} :
    IsCommandError e ↔ (∀ n, e ≠ .responseLength n) ∧ (∀ n, e ≠ .transportFail n) ∧ (∀ b, e ≠ .unknownCommand b) := by
  cases e <;> simp [IsCommandError]

theorem some_mem_of_firstErr {cs : List (Option Err)} {e : Err} (h : firstErr cs = some e) : some e ∈ cs := by
  induction cs with
  | nil => cases h
  | cons c cs ih =>
    cases c with
    | none => exact List.mem_cons_of_mem _ (ih h)
    | some e' => cases h; exact List.mem_cons_self

/-- A check that, where it fails, fails with an error of the command port. -/
def FailsAsCommand (c : Option Err) : Prop := ∀ e, c = some e → IsCommandError e

theorem failsAsCommand_ite {p : Prop} [Decidable p] {e : Err} (he : IsCommandError e) :
    FailsAsCommand (if p then some e else none) := by
  intro e' h
  split at h <;> cases h
  exact he

theorem failsAsCommand_checkDir (d : Nat) : FailsAsCommand (checkDir d) := failsAsCommand_ite trivial

theorem failsAsCommand_checkAct (c : Nat) : FailsAsCommand (checkAct c) := failsAsCommand_ite trivial

theorem failsAsCommand_checkArg (v w : Nat) : FailsAsCommand (checkArg v w) := failsAsCommand_ite trivial

section
variable {e : Err}

theorem isCommandError_of_lookup {cfg : Config} {a : Nat} (h : lookup cfg a = .error e) : IsCommandError e := by
  rw [lookup_error h]
  trivial

theorem isCommandError_of_checked {α : Type} {cs : List (Option Err)} {x : α} (hcs : ∀ c ∈ cs, FailsAsCommand c)
    (h : checked cs x = .error e) : IsCommandError e := by
  unfold checked at h
  split at h
  · next he => cases h; exact hcs _ (some_mem_of_firstErr he) _ rfl
  · cases h

theorem isCommandError_of_setParam {cfg : Config} {a v : Nat} (h : setParamEmission cfg a v = .error e) :
    IsCommandError e := by
  cases hd : lookup cfg a with
  | error e' =>
    rw [setParamEmission_of_lookup_error hd] at h
    cases h
    exact isCommandError_of_lookup hd
  | ok d =>
    cases haccess : d.access with
    | ro => rw [setParamEmission_of_ro hd haccess] at h; cases h; trivial
    | rw => rw [setParamEmission_of_rw hd haccess (encodeSetParam_of_lookup hd v)] at h; cases h

theorem isCommandError_of_getParam {cfg : Config} {a : Nat} (h : getParamEmission cfg a = .error e) :
    IsCommandError e := by
  cases hd : lookup cfg a with
  | error e' =>
    rw [getParamEmission_of_lookup_error hd] at h
    cases h
    exact isCommandError_of_lookup hd
  | ok d => rw [getParamEmission_of_lookup hd] at h; cases h

theorem isCommandError_of_setLspdOpt {cfg : Config} {n : Nat} (h : setLspdOptEmission cfg n = .error e) :
    IsCommandError e := by
  cases hd : lookup cfg minSpeedAddr with
  | error e' =>
    rw [setLspdOptEmission_of_no_minSpeed hd] at h
    cases h
    exact isCommandError_of_lookup hd
  | ok d =>
    by_cases hn : n = 1
    · rw [hn, setLspdOptEmission_one (encodeSetParam_of_lookup hd _)] at h; cases h
    · rw [setLspdOptEmission_of_ne_one hd hn] at h; cases h; trivial

end

/-- The checks of a command-port operation end with an error of the command port. -/
theorem exec_command_error (i : Instr) (s : State) (hi : IsCommand i) :
    ∃ m, exec i s = .next (commandPort m s) ∧ ∀ e, m = .error e → IsCommandError e := by
  cases i
  case setParam => exact ⟨_, rfl, fun _ => isCommandError_of_setParam⟩
  case getParam => exact ⟨_, rfl, fun _ => isCommandError_of_getParam⟩
  case setLspdOpt => exact ⟨_, rfl, fun _ => isCommandError_of_setLspdOpt⟩
  case run | move | goto | gotoDir | goUntil | releaseSw =>
    refine ⟨_, rfl, fun e => isCommandError_of_checked ?_⟩
    simp [failsAsCommand_checkDir, failsAsCommand_checkAct, failsAsCommand_checkArg]
  case goHome | goMark | softStop | hardStop | softHiz | hardHiz | resetPos | resetDevice | getStatus =>
    exact ⟨_, rfl, nofun⟩
  all_goals cases hi

/-- A command-port operation is asked for by a command record (30_encoding.md R92). -/
theorem exists_decodeRequest {i : Instr} (hi : IsCommand i) : ∃ q, decodeRequest q = i := by
  have hport := decodePort_encodePort i
  obtain ⟨q, hq⟩ := command_of_instrKind_decodePort (p := encodePort i) (by rw [hport]; exact hi)
  exact ⟨q, by rw [hq] at hport; exact hport⟩

theorem wellFormed_of_accepted {i : Instr} {s t : State} (hi : IsCommand i) (hidle : s.engine.phase = .idle)
    (h : exec i s = .next t) (hxfer : t.engine.phase = .xfer) : i.wellFormed s.cfg = true := by
  obtain ⟨q, rfl⟩ := exists_decodeRequest hi
  exact wellFormed_of_encode (encode_of_accepted hidle h hxfer)

/-- A command-port operation is refused, the state otherwise unchanged, or its frame is taken in IDLE. -/
theorem exec_command_cases {i : Instr} (hi : IsCommand i) (s : State) :
    (∃ e, IsCommandError e ∧ exec i s = .next (refusedWith e s)) ∨
    (s.engine.phase = .idle ∧ ∃ em, exec i s = .next (emit em s)) := by
  cases hphase : s.engine.phase with
  | desync => exact .inl ⟨.desync, trivial, exec_command_desync hi hphase⟩
  | xfer => exact .inl ⟨.engineBusy, trivial, exec_command_xfer hi hphase⟩
  | idle =>
    obtain ⟨m, hm, herror⟩ := exec_command_error i s hi
    cases m with
    | error e => exact .inl ⟨e, herror e rfl, by rw [hm, commandPort_idle_refusedWith hphase]⟩
    | ok em => exact .inr ⟨rfl, em, by rw [hm, commandPort_idle_ok hphase]⟩

/-- Settles O16: `exec_command_cases`; an accepted operation has passed its checks. -/
theorem refusalsArePrecise : Obligations.RefusalsArePrecise := by
  intro i s t hi h
  obtain ⟨e, he, hrefused⟩ | ⟨hidle, em, haccepted⟩ := exec_command_cases hi s
  · obtain rfl : refusedWith e s = t := by simpa [hrefused] using h
    exact .inr ⟨e, rfl, isCommandError_iff.1 he⟩
  · obtain rfl : emit em s = t := by simpa [haccepted] using h
    exact .inl ⟨hidle, rfl, wellFormed_of_accepted hi hidle h rfl⟩

end Sys2Proof
end

section
/-!
PROOFS. The frame engine between requests (60_exceptions.md R232, R233, R236): one exchange a step in XFER, the results
of a completed frame, transport failure, and that a step from an allowed record goes on.
-/

namespace Sys2Proof

open Sys2Proof.Machine Sys2Proof.Safety

/-! ### Where the host does nothing (60_exceptions.md R232, R236) -/

theorem taken_of_cons {s : State} {event : HostEvent} {rest : List HostEvent} (h : s.inbox = event :: rest) :
    taken s = { s with inbox := rest } := by
  simp [taken, h]

/-- Settles O7: the engine's turn, with the tick taken if there is one. -/
theorem engineMovesWhenHostWaits : Obligations.EngineMovesWhenHostWaits := by
  refine fun s hcfg => ⟨fun hinbox hphase => ?_, fun hinbox hphase => ?_, fun rest hinbox hphase => ?_,
    fun rest hinbox hphase => ?_⟩
  · rw [step_nil hcfg hinbox, engineTurn_xfer hphase]
  · rw [step_nil hcfg hinbox, engineTurn_waits hphase]
  · rw [step_tick hcfg hinbox, engineTurn_xfer (s := taken s) hphase, taken_of_cons hinbox]
  · rw [step_tick hcfg hinbox, engineTurn_waits (s := taken s) hphase, taken_of_cons hinbox]

/-! ### Nothing is fatal (60_exceptions.md R220) -/

theorem exec_goes_on (i : Instr) (s : State) : ∃ t, exec i s = .next t := by
  obtain ⟨-, m, h⟩ | ⟨-, v, h⟩ | ⟨-, v, h⟩ := exec_cases i s <;> exact ⟨_, h⟩

/-- An allowed record in XFER holds a byte at `idx` and a tag, all that the engine step asks for (log 8). -/
theorem engineTurn_goes_on {s : State} (hinv : Inv s) : ∃ t, engineTurn s = .next t := by
  by_cases hphase : s.engine.phase = .xfer
  · obtain ⟨hidx, -, -, c, -, htag, -⟩ := command_of_inv hinv hphase
    exact ⟨_, by rw [engineTurn_xfer hphase, engineStep_next (List.getElem?_eq_getElem hidx) htag]⟩
  · exact ⟨s, engineTurn_waits hphase⟩

/-- Settles O39: the configuration is not refused, and the engine's turn, block reset and every operation go on. -/
theorem noRunFaults : Obligations.NoRunFaults := by
  intro s hinv
  obtain ⟨hcfg, heng⟩ := hinv
  cases hinbox : s.inbox with
  | nil => rw [step_nil hcfg hinbox]; exact engineTurn_goes_on ⟨hcfg, heng⟩
  | cons event rest =>
    cases event with
    | tick => rw [step_tick hcfg hinbox]; exact engineTurn_goes_on (s := taken s) ⟨hcfg, heng⟩
    | reset => exact ⟨_, step_reset hcfg hinbox⟩
    | request p => rw [step_request hcfg hinbox]; exact exec_goes_on _ _

/-! ### The result of a completed frame (60_exceptions.md R232) -/

/-- The bytes kept are those past the command part (10_state.md R26). -/
theorem received_eq (e : Engine) (r : Byte) : received e r = if e.idx < e.ncmd then e.rx else e.rx ++ [r] := by
  unfold received
  by_cases h : e.idx < e.ncmd
  · rw [if_pos h, if_neg (Nat.not_le.2 h)]
  · rw [if_neg h, if_pos (Nat.not_lt.1 h)]

/-- A GET_PARAM's response is read as its register; the status register's value is a status word
(41_config_commands.md R132, R133). -/
theorem completion_param {cfg : Config} {a : Nat} {d : RegDesc} {rx : List Byte} (hd : lookup cfg a = .ok d)
    (hlen : rx.length = nbytes d.width) (tag : Tag) :
    completion cfg (.param a) tag rx =
      if a = 0x19 then .status tag .nonclearing (unbe rx % 2 ^ d.width) else .value tag a (unbe rx % 2 ^ d.width) := by
  simp only [completion, decodeParamResponse_of_lookup hd hlen]
  rfl

/-! ### One step of the engine (60_exceptions.md R232, R233) -/

section
variable {s : State} {b : Byte} {tag : Tag} (hb : s.engine.frame[s.engine.idx]? = some b)
  (htag : s.engine.tag = some tag)
include hb htag

theorem engineStep_advances {r : Byte} (ha : nextAnswer s = some r)
    (hmore : s.engine.idx + 1 ≠ s.engine.frame.length) :
    engineStep s = .next { s with
      answers := s.answers.tail, wire := s.wire ++ [⟨b, some r⟩],
      engine := { s.engine with idx := s.engine.idx + 1, rx := received s.engine r } } := by
  rw [engineStep_next hb htag, ha, afterAnswer, advance_more (s := exchange b s) tag r hmore, exchange, ha]

theorem engineStep_completes {r : Byte} (ha : nextAnswer s = some r)
    (hlast : s.engine.idx + 1 = s.engine.frame.length) :
    engineStep s = .next { s with
      answers := s.answers.tail, wire := s.wire ++ [⟨b, some r⟩],
      engine := emptied .idle (completion s.cfg s.engine.resp tag (received s.engine r)) } := by
  rw [engineStep_next hb htag, ha, afterAnswer, advance_last (s := exchange b s) tag r hlast, exchange, ha]

theorem engineStep_fails (ha : nextAnswer s = none) :
    engineStep s = .next { s with
      answers := s.answers.tail, wire := s.wire ++ [⟨b, none⟩],
      engine := emptied .desync (.err (.transportFail s.engine.idx)) } := by
  rw [engineStep_next hb htag, ha, afterAnswer, transportFailure, exchange, ha]

end

/-- Settles O30: an answer before the last, the last with the result of each kind of response, and FAIL. -/
theorem engineExchangesOneByte : Obligations.EngineExchangesOneByte := by
  refine fun s b tag _ hb htag => ⟨fun r ha => ?_, engineStep_fails hb htag⟩
  rw [← received_eq]
  refine ⟨engineStep_advances hb htag ha, fun hlast hresp => ?_, fun hlast hresp => ?_,
    fun a d hlast hresp hd hlen hstatus => ?_, fun a d hlast hresp hd hlen hstatus => ?_⟩
  all_goals rw [engineStep_completes hb htag ha hlast, hresp]
  · rfl
  · rfl
  · rw [completion_param hd hlen, if_pos hstatus]; rfl
  · rw [completion_param hd hlen, if_neg hstatus]; rfl

/-! ### DESYNC (60_exceptions.md R233) -/

/-- Only block reset leaves DESYNC, and nothing is sent there. -/
theorem step_desync {s t : State} (h : step s = .next t) (hphase : s.engine.phase = .desync)
    (hhost : s.inbox.head? ≠ some .reset) : t.engine.phase = .desync ∧ t.wire = s.wire := by
  cases step_effect h with
  | waits _ | converts _ | decodes _ | refuses _ => exact ⟨hphase, rfl⟩
  | resets hreset => exact absurd hreset hhost
  | advances hxfer | completes hxfer | fails hxfer => simp [hphase] at hxfer
  | accepts hidle => simp [hphase] at hidle

/-- Settles O10: FAIL in XFER, a request in DESYNC, and any other step there. -/
theorem transportFailureDesynchronises : Obligations.TransportFailureDesynchronises :=
  ⟨fun _ _ _ _ hb htag ha => engineStep_fails hb htag ha, fun _ _ hi hphase => exec_command_desync hi hphase,
    fun _ _ => step_desync⟩

end Sys2Proof
end

section
/-!
PROOFS. Block reset (70_reset_and_hazards.md R250 to R253): the engine record it leaves, the result NONE that only it
writes, the configuration it keeps, and the chip's own reset, which is a frame like any other.
-/

namespace Sys2Proof

open Sys2Proof.Machine Sys2Proof.Safety

/-! ### The step that takes block reset (70_reset_and_hazards.md R250) -/

theorem eq_blockReset_of_step {s t : State} (h : step s = .next t) (hhost : s.inbox.head? = some .reset) :
    t = blockReset (taken s) := by
  obtain ⟨hcfg, -⟩ := step_cases h
  obtain ⟨rest, hinbox⟩ := List.head?_eq_some_iff.1 hhost
  rw [step_reset hcfg hinbox] at h
  cases h
  rfl

/-- Settles O37: the configuration of R7 is well formed, and the record after reset holds no trace of a frame. -/
theorem engineInvariantAtReset : Obligations.EngineInvariantAtReset :=
  ⟨by decide, engineOk_emptied_idle _ _⟩

/-- Settles O1: the step with the event taken; any other step from DESYNC stays there. -/
theorem blockResetEmptiesEngine : Obligations.BlockResetEmptiesEngine := by
  refine ⟨fun s rest hcfg hinbox => ?_, rfl, fun s t h hdesync hleaves => ?_⟩
  · rw [step_reset hcfg hinbox, taken_of_cons hinbox]
    rfl
  · by_contra hhost
    obtain ⟨hstays, -⟩ := step_desync h hdesync hhost
    exact hleaves hstays

/-! ### The result NONE (70_reset_and_hazards.md R251) -/

/-- Completion always has something to report (60_exceptions.md R232). -/
theorem completion_ne_none (cfg : Config) (resp : Resp) (tag : Tag) (rx : List Byte) :
    completion cfg resp tag rx ≠ .none := by
  cases resp with
  | none => nofun
  | status => nofun
  | param a =>
    dsimp only [completion]
    cases decodeParamResponse cfg a rx with
    | error e => nofun
    | ok v => dsimp only; split <;> nofun

/-- A step keeps the result and ends no frame, writes a result other than NONE, or takes block reset. -/
theorem step_res_cases {s t : State} (h : step s = .next t) :
    (t.engine.res = s.engine.res ∧ (s.engine.phase = .xfer → t.engine.phase = .xfer)) ∨
      t.engine.res ≠ .none ∨ s.inbox.head? = some .reset := by
  cases step_effect h with
  | waits _ | converts _ | decodes _ => exact .inl ⟨rfl, id⟩
  | @advances b r tag _ _ _ _ hmore =>
    rw [advance_more (s := exchange b (taken s)) tag r hmore]
    exact .inl ⟨rfl, id⟩
  | @completes b r tag _ _ _ _ hlast =>
    rw [advance_last (s := exchange b (taken s)) tag r hlast]
    exact .inr (.inl (completion_ne_none _ _ _ _))
  | fails _ _ _ | refuses _ => exact .inr (.inl nofun)
  | resets hhost => exact .inr (.inr hhost)
  | accepts _ _ => exact .inl ⟨rfl, fun _ => rfl⟩

/-- A command-port request is accepted, or leaves an error (60_exceptions.md R230, R231). -/
theorem step_command_cases {s t : State} {q : Request} (h : step s = .next t)
    (hhost : s.inbox.head? = some (.request (.command q))) :
    (s.engine.phase = .idle ∧ t.engine.phase = .xfer) ∨ t.engine.res ≠ .none := by
  obtain ⟨hcfg, -⟩ := step_cases h
  obtain ⟨rest, hinbox⟩ := List.head?_eq_some_iff.1 hhost
  rw [step_request hcfg hinbox] at h
  have hcommand : IsCommand (decodeRequest q) := by simp [IsCommand, instrKind_decodeRequest]
  obtain ⟨e, -, hrefused⟩ | ⟨hidle, em, haccepted⟩ := exec_command_cases hcommand (taken s)
  · obtain rfl : refusedWith e (taken s) = t := by simpa using hrefused.symm.trans h
    exact .inr nofun
  · obtain rfl : emit em (taken s) = t := by simpa using haccepted.symm.trans h
    exact .inl ⟨hidle, rfl⟩

/-- Settles O2: block reset writes NONE, and the cases of a step and of a command request. -/
theorem resultNoneMeansNoRequestEnded : Obligations.ResultNoneMeansNoRequestEnded := by
  refine ⟨rfl, fun s t h hhost => ?_, fun s t h hres hnone => ?_, fun s t q h hhost hrefused => ?_,
    fun s t h hphase hends hhost => ?_⟩
  · rw [eq_blockReset_of_step h hhost]
    rfl
  · obtain ⟨hkept, -⟩ | hwritten | hhost := step_res_cases h
    · exact absurd (hkept.symm.trans hnone) hres
    · exact absurd hnone hwritten
    · exact hhost
  · exact (step_command_cases h hhost).resolve_left hrefused
  · obtain ⟨-, hstays⟩ | hwritten | hreset := step_res_cases h
    · exact absurd (hstays hphase) hends
    · exact hwritten
    · exact absurd hreset hhost

/-! ### The configuration (70_reset_and_hazards.md R252) -/

@[simp] theorem advance_cfg (tag : Tag) (r : Byte) (s : State) : (advance tag r s).cfg = s.cfg := by
  unfold advance
  split <;> rfl

theorem step_cfg {s t : State} (h : step s = .next t) : t.cfg = s.cfg := by
  cases step_effect h with
  | advances | completes => rw [advance_cfg]; rfl
  | waits | fails | resets | converts | decodes | refuses | accepts => rfl

/-- A port call returns one value from the state and from the state after block reset: it reads the configuration
alone (40_converter.md R124, 30_encoding.md R91). -/
theorem exec_blockReset {i : Instr} (hi : ¬ IsCommand i) (s : State) :
    (∃ v, exec i s = .next (convReturn v s) ∧ exec i (blockReset s) = .next (convReturn v (blockReset s))) ∨
    (∃ v, exec i s = .next (decReturn v s) ∧ exec i (blockReset s) = .next (decReturn v (blockReset s))) := by
  cases i with
  | accToReg | decToReg | maxSpeedToReg | minSpeedToReg | fsSpdToReg | intSpdToReg | runSpeedToReg =>
    exact .inl ⟨_, rfl, rfl⟩
  | regToAcc | regToDec | regToMaxSpeed | regToMinSpeed | regToFsSpd | regToIntSpd | regToRunSpeed =>
    exact .inl ⟨_, rfl, rfl⟩
  | decodeParam | decodeStatus | decodeCommand | decodeFrame => exact .inr ⟨_, rfl, rfl⟩
  | _ => exact absurd rfl hi

/-- Settles O3: `step_cfg`, and `exec_blockReset` for the port the call writes; block reset keeps the other. -/
theorem configurationSurvivesReset : Obligations.ConfigurationSurvivesReset := by
  refine ⟨fun s t => step_cfg, fun i s t u hi ht hu => ?_⟩
  obtain ⟨v, hs, hreset⟩ | ⟨v, hs, hreset⟩ := exec_blockReset hi s
  all_goals
    cases hs.symm.trans ht
    cases hreset.symm.trans hu
    exact ⟨rfl, rfl⟩

/-! ### Block reset and the chip's reset (70_reset_and_hazards.md R253) -/

/-- Settles O4: block reset writes the record only; RESET_DEVICE is an accepted frame of one byte, run to completion. -/
theorem blockAndChipResetSeparate : Obligations.BlockAndChipResetSeparate := by
  refine ⟨fun s t h hhost => ?_, fun s r rest more hcfg hidle hinbox hanswers => ?_⟩
  · rw [eq_blockReset_of_step h hhost]
    exact ⟨rfl, rfl⟩
  · obtain ⟨result, hresult, hrun⟩ :=
      acceptedFrameRunsToCompletion s .resetDevice [0xC0] [r] rest more hcfg hidle rfl rfl hinbox hanswers
    cases hresult
    exact hrun

end Sys2Proof
end

section
/-!
PROOFS. The caller's state and its errata stop (70_reset_and_hazards.md R259, R260): the update by each family of tags,
and the last motion kind that outlives the controller state.
-/

namespace Sys2Proof

open Sys2Proof.Machine Sys2Proof.Safety

/-! ### The update by a completed frame, and the duty (70_reset_and_hazards.md R259) -/

section
variable {c : Caller} {tag : Tag}

theorem callerComplete_config (h : tag.family = .config) : callerComplete c tag = ⟨.configuring, c.last⟩ := by
  simp [callerComplete, h]

theorem callerComplete_motion (h : tag.family = .motion) :
    callerComplete c tag = ⟨.motionPending tag.kind, some tag.kind⟩ := by
  simp [callerComplete, h]

theorem callerComplete_stop (h : tag.family = .stop) : callerComplete c tag = ⟨.idle, none⟩ := by
  simp [callerComplete, h]

theorem callerComplete_reset (h : tag.family = .reset) :
    callerComplete c tag = ⟨.unknown, none⟩ ∨ callerComplete c tag = c := by
  simp only [callerComplete, h]
  split
  · exact .inl rfl
  · exact .inr rfl

theorem callerComplete_status (h : tag.family = .status) : callerComplete c tag = c := by
  simp [callerComplete, h]

end

/-- A motion tag names the kind requested (42_motion_commands.md R160). -/
theorem tag_kind_of_motion {k : Kind} (h : k.tag.family = .motion) : k.tag.kind = k := by
  cases k with
  | setLspdOpt => cases h
  | _ => rfl

theorem stopOwed_iff (c : Caller) (k : Kind) : stopOwed c k = true ↔ ∃ l, c.last = some l ∧ l ≠ k := by
  unfold stopOwed
  cases c.last <;> simp

theorem pending_of_literalStopOwed {c : Caller} {k : Kind} (h : literalStopOwed c k = true) :
    ∃ l, c.mode = .motionPending l ∧ l ≠ k := by
  unfold literalStopOwed at h
  split at h
  · next l hmode => exact ⟨l, hmode, of_decide_eq_true h⟩
  · cases h

/-- Settles O57: the update of each family, with the kind that a motion tag names. -/
theorem callerStateFollowsTags : Obligations.CallerStateFollowsTags := by
  refine ⟨rfl, fun c k => ⟨callerComplete_config, fun hmotion => ?_, callerComplete_stop, rfl, rfl, rfl,
    fun _ => rfl, stopOwed_iff c k⟩⟩
  rw [callerComplete_motion hmotion, tag_kind_of_motion hmotion]

/-! ### The literal rule asks for no stop that the duty does not (90_conflicts.md C7) -/

/-- The motion kind pending in `C`, if one is, is `L`. -/
def PendingIsLast (c : Caller) : Prop := ∀ l, c.mode = .motionPending l → c.last = some l

theorem PendingIsLast.complete {c : Caller} (h : PendingIsLast c) (tag : Tag) :
    PendingIsLast (callerComplete c tag) := by
  cases hfamily : tag.family with
  | config => rw [callerComplete_config hfamily]; nofun
  | motion => rw [callerComplete_motion hfamily]; rintro l ⟨⟩; rfl
  | stop => rw [callerComplete_stop hfamily]; nofun
  | reset =>
    obtain hcleared | hkept := callerComplete_reset (c := c) hfamily
    · rw [hcleared]; nofun
    · rw [hkept]; exact h
  | status => rw [callerComplete_status hfamily]; exact h

/-- By induction over the frames completed since controller reset. -/
theorem pendingIsLast_callerAfter (tags : List Tag) : PendingIsLast (callerAfter tags) :=
  List.foldlRecOn tags callerComplete (motive := PendingIsLast) nofun fun _ h tag _ => h.complete tag

/-- Settles O58: the kind the literal rule looks at is `L` after any sequence of frames. -/
theorem conservativeStopCoversLiteral : Obligations.ConservativeStopCoversLiteral := by
  intro tags k h
  obtain ⟨l, hpending, hne⟩ := pending_of_literalStopOwed h
  exact (stopOwed_iff _ k).2 ⟨l, pendingIsLast_callerAfter tags l hpending, hne⟩

/-! ### The same motion kind, and MOVE before RUN (70_reset_and_hazards.md R260) -/

theorem callerAfter_append (tags more : List Tag) :
    callerAfter (tags ++ more) = more.foldl callerComplete (callerAfter tags) :=
  List.foldl_append

theorem not_stopOwed_of_last {c : Caller} {k : Kind} (h : c.last = some k ∨ c.last = none) :
    stopOwed c k = false := by
  rw [Bool.eq_false_iff, Ne, stopOwed_iff]
  rintro ⟨l, hl, hne⟩
  obtain hsame | hnone := h
  · exact hne (Option.some.inj (hl.symm.trans hsame))
  · cases hl.symm.trans hnone

/-- Settles O59: MOVE sets `L`, whatever came before it, and a stop or RESET_DEVICE after it clears `L`. -/
theorem sameKindOwesNoStop : Obligations.SameKindOwesNoStop := by
  refine ⟨fun c k => not_stopOwed_of_last, fun tags => ?_⟩
  simp only [callerAfter_append]
  exact ⟨(stopOwed_iff _ _).2 ⟨.move, rfl, nofun⟩, not_stopOwed_of_last (.inl rfl),
    fun k => ⟨not_stopOwed_of_last (.inr rfl), not_stopOwed_of_last (.inr rfl)⟩⟩

end Sys2Proof
end
